-- ==== Sys2Proof/Word.lean ====
section
/-! DEFINITION. The value types of the block (spec/00_scope.md R7): all quantities are unsigned. -/

namespace Sys2Proof

/-- A byte, an integer 0..255 (R7). A character is a byte that holds an ASCII code. -/
abbrev Byte := BitVec 8

/-- A 32-bit register or command word (R7, R90). -/
abbrev Word := BitVec 32

/-- A 5-bit group, an integer 0..31 (R7, R190). -/
abbrev Symbol := BitVec 5

/-- The 30-bit checksum register and residue (R206, R32). -/
abbrev Residue := BitVec 30

/-- A byte offset of the host window, 0x000..0x1FF (R60, R41). -/
abbrev Offset := BitVec 9

/-- The checksum variant of B32.CKSUM and B32.ENC: VAR = 0 is Bech32, VAR = 1 is Bech32m (R93). -/
inductive Variant where
  | bech32
  | bech32m
  deriving DecidableEq, Repr

/-- The natural number of a bit. -/
abbrev bitNat (b : Bool) : Nat := cond b 1 0

end Sys2Proof
end

