-- ==== Sys2Proof/Config.lean ====
section
/-! DEFINITION. The parameters of spec/00_scope.md R6, and the free values of
spec/93_implementation_defined.md (U1, U2, U4). `T_CMD`, the one OPEN parameter of R6, is no number
here: it is the place of the completing clock edge in the schedule that State holds (log entry 1). -/

namespace Sys2Proof.Config

/-- The identification word "B58C" (R24). -/
abbrev idWord : Word := 0x42353843

/-- Bytes in IBUF (R6). -/
abbrev ibufSize : Nat := 128

/-- Bytes in OBUF (R6). -/
abbrev obufSize : Nat := 128

/-- Bytes in HBUF (R6). -/
abbrev hbufSize : Nat := 83

/-- Largest ILEN that B58C.ENC accepts (R6, R173). -/
abbrev payloadMax : Nat := 80

/-- Largest ILEN that B58.ENC accepts (R6, R125). -/
abbrev b58RawMax : Nat := 93

/-- Largest ILEN that B32.GROUP accepts (R6, R193). -/
abbrev groupMax : Nat := 80

/-- Largest length of a packed Bech32 string (R6, R221). -/
abbrev b32TotalMax : Nat := 90

/-- Bounds of HLEN for the Bech32 commands (R6, R208). -/
abbrev hrpMin : Nat := 1
abbrev hrpMax : Nat := 83

/-- Entries of the template table (R6, R33). -/
abbrev ntpl : Nat := 16

/-- Bytes of the host address window (R6, R60). -/
abbrev windowSize : Nat := 512

/-- FREE VALUE (log entries 4 and 5; U1, U2): what a buffer byte that nothing has defined holds. `draw`
counts the events that made the contents unspecified, `addr` is the byte's window offset; so the value
is stable between such events and unconstrained across them. -/
opaque freeByte (draw addr : Nat) : Byte

/-- FREE VALUE (log entry 6; U4): the data the port returns with the `draw`-th refused read. -/
opaque freeWord (draw : Nat) : Word

end Sys2Proof.Config
end

