-- ==== Sys2Proof/Syntax.lean ====
section
/-! DEFINITION. The command set, version 1.0: one constructor per row of spec/opcode_table.json
(spec/30_encoding.md R95). All operands but the argument byte are implicit (R93). -/

namespace Sys2Proof

/-- The thirteen commands of R95. -/
inductive Instr where
  /-- NOP: no operation (R235). -/
  | nop
  /-- B58C.ENC ver: Base58Check encode under the version byte VER = w[15:8] (R173). -/
  | b58cEnc (ver : Byte)
  /-- B58C.DEC: Base58Check decode and verify (R175). -/
  | b58cDec
  /-- B58.ENC: base-58 conversion, bytes to text (R125). -/
  | b58Enc
  /-- B58.DEC: base-58 conversion, text to bytes (R128). -/
  | b58Dec
  /-- HASH256: the 32-byte double hash (R152). -/
  | hash256
  /-- CKSUM4: the 4-byte double-hash checksum (R153). -/
  | cksum4
  /-- B32.GROUP: bytes to 5-bit symbols (R193). -/
  | b32Group
  /-- B32.UNGROUP: 5-bit symbols to bytes (R195). -/
  | b32Ungroup
  /-- B32.POLYMOD: the residue of prefix and symbols (R210). -/
  | b32Polymod
  /-- B32.CKSUM var: the six checksum symbols, VAR = w[8] (R215). -/
  | b32Cksum (var : Variant)
  /-- B32.ENC var: the packed text, VAR = w[8] (R220). -/
  | b32Enc (var : Variant)
  /-- MOV.O2I off: copy OBUF into IBUF at OFF = w[15:8] (R236). -/
  | movO2I (off : Byte)
  deriving DecidableEq, Repr

/-- The mnemonic of each command, as spec/opcode_table.json spells it (R95). -/
def Instr.mnemonic : Instr → String
  | .nop => "NOP"
  | .b58cEnc _ => "B58C.ENC"
  | .b58cDec => "B58C.DEC"
  | .b58Enc => "B58.ENC"
  | .b58Dec => "B58.DEC"
  | .hash256 => "HASH256"
  | .cksum4 => "CKSUM4"
  | .b32Group => "B32.GROUP"
  | .b32Ungroup => "B32.UNGROUP"
  | .b32Polymod => "B32.POLYMOD"
  | .b32Cksum _ => "B32.CKSUM"
  | .b32Enc _ => "B32.ENC"
  | .movO2I _ => "MOV.O2I"

/-- The operation code of each command (R95). -/
def Instr.op : Instr → Nat
  | .nop => 0x0
  | .b58cEnc _ => 0x1
  | .b58cDec => 0x2
  | .b58Enc => 0x3
  | .b58Dec => 0x4
  | .hash256 => 0x5
  | .cksum4 => 0x6
  | .b32Group => 0x7
  | .b32Ungroup => 0x8
  | .b32Polymod => 0x9
  | .b32Cksum _ => 0xA
  | .b32Enc _ => 0xB
  | .movO2I _ => 0xC

end Sys2Proof
end

