-- ==== Sys2Proof/WellFormed.lean ====
section
/-! DEFINITION. Well-formedness. The operand types of `Instr` are exact (an 8-bit VER and OFF, a two-valued
VAR), so no ill-formed `Instr` can be written; the checks are those the spec makes on what is NOT yet an
`Instr`: a command as the assembler reads it, with a number for its argument (spec/30_encoding.md R101),
and a command word against the match and mask of the opcode map (R92, R95). -/

namespace Sys2Proof

/-- The three formats of R92. -/
inductive Format where
  /-- no argument: ARG must be 0x00 -/
  | z
  /-- an 8-bit argument -/
  | a8
  /-- a 1-bit argument: ARG[7:1] must be 0 -/
  | a1
  deriving DecidableEq, Repr

/-- The mask column of R92. -/
def Format.mask : Format → Word
  | .z => 0xFFFFFFFF
  | .a8 => 0xFFFF00FF
  | .a1 => 0xFFFFFEFF

/-- The number of values the argument of a format may take, where it has one (R92, R101). -/
def Format.argBound : Format → Option Nat
  | .z => none
  | .a8 => some 256
  | .a1 => some 2

/-- One row of the opcode map (R95). Its match value is OP zero-extended to 32 bits (R92). -/
structure Row where
  op : Nat
  mnemonic : String
  format : Format
  deriving DecidableEq, Repr

/-- The opcode map of R95. -/
def rows : List Row := [
  ⟨0x0, "NOP", .z⟩,
  ⟨0x1, "B58C.ENC", .a8⟩,
  ⟨0x2, "B58C.DEC", .z⟩,
  ⟨0x3, "B58.ENC", .z⟩,
  ⟨0x4, "B58.DEC", .z⟩,
  ⟨0x5, "HASH256", .z⟩,
  ⟨0x6, "CKSUM4", .z⟩,
  ⟨0x7, "B32.GROUP", .z⟩,
  ⟨0x8, "B32.UNGROUP", .z⟩,
  ⟨0x9, "B32.POLYMOD", .z⟩,
  ⟨0xA, "B32.CKSUM", .a1⟩,
  ⟨0xB, "B32.ENC", .a1⟩,
  ⟨0xC, "MOV.O2I", .a8⟩]

/-- "A word `w` selects the command of a row when `w ∧ mask = match`" (R92). -/
def Row.selects (r : Row) (w : Word) : Bool := w &&& r.format.mask == BitVec.ofNat 32 r.op

/-- Some row selects the word: it is a legal command (R90, R92). -/
def legalWord (w : Word) : Bool := rows.any fun r => r.selects w

/-- A command as the assembler reads it: an operation code and a number for the argument (R101). -/
structure AsmCommand where
  op : Nat
  arg : Option Nat
  deriving DecidableEq, Repr

/-- The format of an operation code, if a row has it (R95). -/
def formatOf (op : Nat) : Option Format := (rows.find? fun r => r.op == op).map Row.format

/-- The operation code is one of the thirteen (R95; 0xD to 0xF are reserved, R98). -/
def AsmCommand.opKnown (c : AsmCommand) : Bool := (formatOf c.op).isSome

/-- An argument stands exactly where the format has one (R92, R101). -/
def AsmCommand.argPresence (c : AsmCommand) : Bool :=
  ((formatOf c.op).bind Format.argBound).isSome == c.arg.isSome

/-- "An argument out of range is an assembler error, not a command" (R101). -/
def AsmCommand.argInRange (c : AsmCommand) : Bool :=
  match (formatOf c.op).bind Format.argBound, c.arg with
  | some bound, some n => n < bound
  | _, _ => true

/-- The three checks together. -/
def AsmCommand.wf (c : AsmCommand) : Bool := c.opKnown && c.argPresence && c.argInRange

/-- The argument of a command as the assembler writes it: VAR is 0 for Bech32 and 1 for Bech32m (R101). -/
def Instr.argNat : Instr → Option Nat
  | .b58cEnc ver => some ver.toNat
  | .b32Cksum .bech32 => some 0
  | .b32Cksum .bech32m => some 1
  | .b32Enc .bech32 => some 0
  | .b32Enc .bech32m => some 1
  | .movO2I off => some off.toNat
  | .nop | .b58cDec | .b58Enc | .b58Dec | .hash256 | .cksum4 | .b32Group | .b32Ungroup | .b32Polymod => none

/-- A command as the assembler writes it. -/
def Instr.asm (i : Instr) : AsmCommand := ⟨i.op, i.argNat⟩

/-- An instruction is well formed when its written form passes the assembler's checks. The operand types
make this hold of every `Instr` (`Laws.Decode`: `instr_wf`). -/
def Instr.wf (i : Instr) : Bool := i.asm.wf

end Sys2Proof
end

