-- ==== Sys2Proof/Decode.lean ====
section
/-! DEFINITION. Decoding, total on all 2^32 words (spec/30_encoding.md R96), and the encoder (R101). -/

namespace Sys2Proof

/-- OP, bits 3:0 (R91). -/
def opField (w : Word) : BitVec 4 := w.extractLsb' 0 4

/-- Z0, bits 7:4, must be 0 (R91). -/
def z0Field (w : Word) : BitVec 4 := w.extractLsb' 4 4

/-- ARG, bits 15:8 (R91). -/
def argField (w : Word) : Byte := w.extractLsb' 8 8

/-- Z1, bits 31:16, must be 0 (R91). -/
def z1Field (w : Word) : BitVec 16 := w.extractLsb' 16 16

/-- Why a word is ILLEGAL (R96, R98). The machine completes every one of them the same way (R238). -/
inductive IllegalReason where
  /-- a non-zero bit among 31:16 -/
  | z1NonZero
  /-- a non-zero bit among 7:4 -/
  | z0NonZero
  /-- a non-zero ARG in format Z -/
  | argNonZero
  /-- a non-zero ARG[7:1] in format A1 -/
  | argHighNonZero
  /-- OP 0xD, 0xE or 0xF -/
  | reservedOp
  deriving DecidableEq, Repr

/-- What a word decodes to. -/
inductive Decoded where
  | command (i : Instr)
  | illegal (r : IllegalReason)
  deriving DecidableEq, Repr

/-- The command of the answer, if it is one. -/
def Decoded.toOption : Decoded → Option Instr
  | .command i => some i
  | .illegal _ => none

/-- Format Z: "if arg ≠ 0 -> ILLEGAL else command(op)" (R96). -/
def formatZ (arg : Byte) (i : Instr) : Decoded :=
  if arg ≠ 0 then .illegal .argNonZero else .command i

/-- VAR = arg[0]: 0 is Bech32, 1 is Bech32m (R93). -/
def varOf (arg : Byte) : Variant := if arg.getLsbD 0 then .bech32m else .bech32

/-- Format A1: "if arg[7:1] ≠ 0 -> ILLEGAL else command(op, VAR = arg[0])" (R96). -/
def formatA1 (arg : Byte) (i : Variant → Instr) : Decoded :=
  if arg.extractLsb' 1 7 ≠ 0 then .illegal .argHighNonZero else .command (i (varOf arg))

/-- The operation code and argument of a word whose must-be-zero fields are zero (R95, R96). -/
def decodeOp (op : BitVec 4) (arg : Byte) : Decoded :=
  match op.toNat with
  | 0x0 => formatZ arg .nop
  | 0x1 => .command (.b58cEnc arg)
  | 0x2 => formatZ arg .b58cDec
  | 0x3 => formatZ arg .b58Enc
  | 0x4 => formatZ arg .b58Dec
  | 0x5 => formatZ arg .hash256
  | 0x6 => formatZ arg .cksum4
  | 0x7 => formatZ arg .b32Group
  | 0x8 => formatZ arg .b32Ungroup
  | 0x9 => formatZ arg .b32Polymod
  | 0xA => formatA1 arg .b32Cksum
  | 0xB => formatA1 arg .b32Enc
  | 0xC => .command (.movO2I arg)
  | _ => .illegal .reservedOp

/-- Decoding a command word (R96). -/
def decodeWord (w : Word) : Decoded :=
  if z1Field w ≠ 0 then .illegal .z1NonZero
  else if z0Field w ≠ 0 then .illegal .z0NonZero
  else decodeOp (opField w) (argField w)

/-- VAR as a bit: BECH32 = 0, BECH32M = 1 (R101). -/
def varBit : Variant → Word
  | .bech32 => 0
  | .bech32m => 1

/-- The word each command assembles to (the table of R101). -/
def encode : Instr → Word
  | .nop => 0x00000000
  | .b58cEnc ver => 0x00000001 + (ver.setWidth 32 <<< 8)
  | .b58cDec => 0x00000002
  | .b58Enc => 0x00000003
  | .b58Dec => 0x00000004
  | .hash256 => 0x00000005
  | .cksum4 => 0x00000006
  | .b32Group => 0x00000007
  | .b32Ungroup => 0x00000008
  | .b32Polymod => 0x00000009
  | .b32Cksum var => 0x0000000A + (varBit var <<< 8)
  | .b32Enc var => 0x0000000B + (varBit var <<< 8)
  | .movO2I off => 0x0000000C + (off.setWidth 32 <<< 8)

/-- The word the host's assembler writes to CMD for a command it accepts (R101); out of range is no word. -/
def assemble (c : AsmCommand) : Option Word :=
  if c.wf then some (BitVec.ofNat 32 c.op + (BitVec.ofNat 32 (c.arg.getD 0) <<< 8)) else none

/-- The command word of a table row numbered as spec/opcode_table.json numbers it: one 32-bit value, bit i
of the number is bit i of the word (R7, R71, R90), and the bits from `nbits` up are zero. -/
def tableWord (nbits w : Nat) : Word := BitVec.ofNat 32 (w % 2 ^ nbits)

/-- What the decoder reads from an instruction whose bits are `w` (log entry 14). There is one length,
32 bits (R90): nothing longer is an instruction. -/
def decodeTableWord (nbits w : Nat) : Option Instr :=
  if nbits ≤ 32 then (decodeWord (tableWord nbits w)).toOption else none

end Sys2Proof
end

