-- ==== Sys2Proof/Machine/State.lean ====
section
/-! DEFINITION. The state of the block (spec/10_state.md), its value after reset (R42), and the reasons a
step can stop. Registers hold only their named fields: reserved bits read 0 and store nothing (R22). -/

namespace Sys2Proof.Machine

/-- PHASE (R21). While a command runs the engine holds its private copies of the command word and of
CTRL.TPLCHK (R40, R230); nothing of them survives completion. STATUS.BUSY is 1 iff the phase is RUN. -/
inductive Phase where
  | idle
  | run (word : Word) (tplchk : Bool)
  deriving DecidableEq, Repr

/-- One entry of the template table (R33). -/
structure Template where
  payLen : Byte
  version : Byte
  valid : Bool
  deriving DecidableEq, Repr

/-- The fields of RES0 (R32). -/
structure Res0 where
  ver : Byte
  payLen : Byte
  tplIdx : BitVec 4
  tplHit : Bool
  deriving DecidableEq, Repr

/-- The error codes, complete (R251); 0x0A to 0xFF are never written (log entry 15). -/
inductive ErrCode where
  /-- 0x00 OK -/
  | ok
  /-- 0x01 E_B58_CKLEN -/
  | b58CkLen
  /-- 0x02 E_B58_PREFIX -/
  | b58Prefix
  /-- 0x03 E_B58_ALPHABET -/
  | b58Alphabet
  /-- 0x04 E_B32_FORMAT -/
  | b32Format
  /-- 0x05 E_B32_TOOLONG -/
  | b32TooLong
  /-- 0x06 E_HRP -/
  | hrp
  /-- 0x07 E_VALUE -/
  | value
  /-- 0x08 E_LEN -/
  | len
  /-- 0x09 E_ILLEGAL_CMD -/
  | illegalCmd
  deriving DecidableEq, Repr

/-- The sizes the register port carries: 1 and 4 bytes; no other can be expressed (R62). -/
inductive Size where
  | byte
  | word
  deriving DecidableEq, Repr

/-- What the world outside does next, one atomic step each (R60, R73; log entry 1). -/
inductive Event where
  /-- HostRead(off, n) (R65) -/
  | read (off : Offset) (size : Size)
  /-- HostWrite(off, n, v) (R66) -/
  | write (off : Offset) (size : Size) (data : Word)
  /-- the pin `rst_n` goes to a level (R280) -/
  | rstN (level : Bool)
  /-- a rising edge of `clk`; `completes` says whether the running command's `T_CMD` ends here (R290) -/
  | clk (completes : Bool)
  deriving DecidableEq, Repr

/-- What the register port answers to an access (R41, R65, R67; log entry 7). -/
inductive Response where
  /-- an accepted read, with the value of the register or of the buffer byte -/
  | readOk (data : Word)
  /-- an accepted write -/
  | writeOk
  /-- a refused read; the data is unspecified (R67), a free value -/
  | readError (data : Word)
  /-- a refused write -/
  | writeError
  deriving DecidableEq, Repr

/-- The buffer bytes by window offset, in one canonical form: offsets strictly rising (`Memory.wf`). An
offset not listed holds no value of its own: a read of it is a free value (log entries 4, 5, 12). -/
abbrev Memory := List Host.Cell

/-- The machine's state: the registers of R22 by field, the buffers of R34 to R37, the phase (R21), the
pin `rst_n` (R41, R280), and the model's own fields (`pending`, `resp` and the three draw counters). -/
structure State where
  /-- CTRL[0], interrupt enable (R25) -/
  ie : Bool
  /-- CTRL[1], template test enable (R25) -/
  tplchk : Bool
  /-- CMD (R26) -/
  cmd : Word
  /-- PHASE, with the engine's private copies (R21, R40) -/
  phase : Phase
  /-- STATUS[1] (R27) -/
  done : Bool
  /-- STATUS[2] (R27) -/
  fail : Bool
  /-- STATUS[3] (R27) -/
  hfault : Bool
  /-- ERR.CODE (R28) -/
  err : ErrCode
  /-- ILEN[7:0] (R29) -/
  ilen : Byte
  /-- HLEN[7:0] (R30) -/
  hlen : Byte
  /-- OLEN[7:0] (R31) -/
  olen : Byte
  /-- RES0 (R32) -/
  res0 : Res0
  /-- RESID[29:0] (R32) -/
  resid : Residue
  /-- TPL[0..15] (R33) -/
  tpl : Vector Template 16
  /-- HBUF, IBUF and OBUF (R34 to R37) -/
  mem : Memory
  /-- the level of the pin `rst_n` (R41) -/
  rstN : Bool
  /-- reset was asserted and no rising edge has sampled `rst_n` high since (R280) -/
  inReset : Bool
  /-- MODEL'S OWN: what the world outside does next, first first (log entry 1) -/
  pending : List Event
  /-- MODEL'S OWN: the port's last answer (log entry 7) -/
  resp : Option Response
  /-- MODEL'S OWN: how often IBUF and HBUF became unspecified (log entries 4, 20) -/
  inDraw : Nat
  /-- MODEL'S OWN: how often OBUF became unspecified (log entries 5, 20) -/
  outDraw : Nat
  /-- MODEL'S OWN: how many reads were refused (log entries 6, 20) -/
  portDraw : Nat
  deriving DecidableEq, Repr

/-- Why a step can stop with a fault: there is NO such reason. "Nothing in the block is `stuck`: every
command completes and every access is answered" (spec/93_implementation_defined.md, Part 1; R232, R60).
A refused access and a failed command are next states (R250, R262; log entry 11). -/
inductive Fault where
  deriving DecidableEq, Repr

/-- Why a step can be refused. -/
inductive Refusal where
  /-- Raised by `exec` alone, for a command that has no meaning yet. Safe: the machine stops where the
  hardware goes on. No command is without its meaning, so nothing raises it now (log entry 11). -/
  | notModelled (mnemonic : String)
  deriving DecidableEq, Repr

/-- The machine right after reset (R42): all registers 0, no command in flight, the template table empty,
the buffers unspecified (nothing listed). The pins and the model's own fields: log entries 20 and 21. -/
def State.reset : State where
  ie := false
  tplchk := false
  cmd := 0
  phase := .idle
  done := false
  fail := false
  hfault := false
  err := .ok
  ilen := 0
  hlen := 0
  olen := 0
  res0 := ⟨0, 0, 0, false⟩
  resid := 0
  tpl := Vector.replicate 16 ⟨0, 0, false⟩
  mem := []
  rstN := true
  inReset := false
  pending := []
  resp := none
  inDraw := 0
  outDraw := 0
  portDraw := 0

end Sys2Proof.Machine
end

