-- ==== Sys2Proof/Machine/Flags.lean ====
section
/-! DEFINITION. The status bits and the words the registers read as (spec/10_state.md R24 to R33). -/

namespace Sys2Proof.Machine

/-- STATUS.BUSY: 1 iff PHASE = RUN (R21, R27). -/
def busy (s : State) : Bool :=
  match s.phase with
  | .idle => false
  | .run _ _ => true

/-- The output `irq = STATUS.DONE ∧ CTRL.IE`, a level (R25, R256). -/
def irq (s : State) : Bool := s.done && s.ie

/-- "FAIL = (ERR ≠ 0)", written by completion (R27). -/
def failFlag (e : ErrCode) : Bool := e != .ok

/-- The number of an error code (R251). -/
def errNumber : ErrCode → Byte
  | .ok => 0x00
  | .b58CkLen => 0x01
  | .b58Prefix => 0x02
  | .b58Alphabet => 0x03
  | .b32Format => 0x04
  | .b32TooLong => 0x05
  | .hrp => 0x06
  | .value => 0x07
  | .len => 0x08
  | .illegalCmd => 0x09

/-- A bit as a word with that bit at position `pos`. -/
def bitAt (pos : Nat) (b : Bool) : Word := (BitVec.ofBool b).setWidth 32 <<< pos

/-- CTRL as read: IE, TPLCHK; SRST reads 0 (R25). -/
def ctrlWord (s : State) : Word := bitAt 0 s.ie ||| bitAt 1 s.tplchk

/-- STATUS as read: BUSY, DONE, FAIL, HFAULT (R27). -/
def statusWord (s : State) : Word :=
  bitAt 0 (busy s) ||| bitAt 1 s.done ||| bitAt 2 s.fail ||| bitAt 3 s.hfault

/-- RES0 as read: VER, PAYLEN, TPLIDX, TPLHIT (R32). -/
def res0Word (r : Res0) : Word :=
  r.ver.setWidth 32 ||| (r.payLen.setWidth 32 <<< 8) ||| (r.tplIdx.setWidth 32 <<< 16) ||| bitAt 20 r.tplHit

/-- TPL[i] as read: PAYLEN, VERSION, VALID (R33). -/
def templateWord (t : Template) : Word :=
  t.payLen.setWidth 32 ||| (t.version.setWidth 32 <<< 8) ||| bitAt 31 t.valid

/-- The template a word written to TPL[i] stores; its other bits are ignored (R33, R66). -/
def templateOfWord (v : Word) : Template :=
  ⟨v.extractLsb' 0 8, v.extractLsb' 8 8, v.getLsbD 31⟩

end Sys2Proof.Machine
end

