-- ==== Sys2Proof/Machine/Ops.lean ====
section
/-! DEFINITION. The named operations on the buffers and registers: reading and writing a byte, `out`, command
start and completion, the failing completion, the refused access, and reset. These last three stand where a
processor takes an exception: nothing is saved, no mode changes, control goes nowhere (spec/60_exceptions.md
R257), so there is no return beside them. -/

namespace Sys2Proof.Machine

/-- Window offset of HBUF[0] (R61). -/
abbrev hbufBase : Nat := 0x080
/-- Window offset of IBUF[0] (R61). -/
abbrev ibufBase : Nat := 0x100
/-- Window offset of OBUF[0] (R61). -/
abbrev obufBase : Nat := 0x180

/-- The offset is one of OBUF's (R61). -/
def isObuf (a : Nat) : Bool := decide (obufBase ≤ a ∧ a < obufBase + Config.obufSize)

/-- The offset is one of IBUF's (R61). -/
def isIbuf (a : Nat) : Bool := decide (ibufBase ≤ a ∧ a < ibufBase + Config.ibufSize)

/-- The offset is one of HBUF's (R61). -/
def isHbuf (a : Nat) : Bool := decide (hbufBase ≤ a ∧ a < hbufBase + Config.hbufSize)

/-- The offset is a buffer byte's. -/
def isBuffer (a : Nat) : Bool := isHbuf a || isIbuf a || isObuf a

/-- The byte listed at an offset, if one is. -/
def Memory.get : Memory → Nat → Option Byte
  | [], _ => none
  | (k, c) :: m, a => if k = a then some c else Memory.get m a

/-- List a byte at an offset, in its place in the rising order. -/
def Memory.set : Memory → Nat → Byte → Memory
  | [], a, b => [(a, b)]
  | (k, c) :: m, a, b =>
    if a < k then (a, b) :: (k, c) :: m
    else if a = k then (a, b) :: m
    else (k, c) :: Memory.set m a b

/-- List the bytes of a string from an offset on. -/
def Memory.store : Memory → Nat → List Byte → Memory
  | m, _, [] => m
  | m, a, b :: bs => Memory.store (Memory.set m a b) (a + 1) bs

/-- Unlist every byte of OBUF: they all become unspecified (R38). -/
def Memory.clearObuf (m : Memory) : Memory := m.filter fun c => !isObuf c.1

/-- The canonical form: offsets strictly rising, each a buffer byte's. No entry can equal what an unlisted
offset reads as, because an unlisted offset holds no value (log entry 12). -/
abbrev Memory.wf (m : Memory) : Prop :=
  m.Pairwise (fun c d => c.1 < d.1) ∧ ∀ c ∈ m, isBuffer c.1 = true

/-- The free value of an undefined buffer byte: stable until the next event that makes its buffer
unspecified again (R34, R38; log entries 4, 5). -/
def undefinedByte (s : State) (a : Nat) : Byte :=
  Config.freeByte (if isObuf a then s.outDraw else s.inDraw) a

/-- Read one buffer byte by its window offset. -/
def readByte (s : State) (a : Nat) : Byte := (Memory.get s.mem a).getD (undefinedByte s a)

/-- Write one buffer byte by its window offset. -/
def writeByte (a : Nat) (b : Byte) (s : State) : State := { s with mem := Memory.set s.mem a b }

/-- Write the bytes of a string from a window offset on. -/
def writeBytes (a : Nat) (bs : List Byte) (s : State) : State := { s with mem := Memory.store s.mem a bs }

/-- RES0 with every field 0 (R32). -/
def noRes0 : Res0 := ⟨0, 0, 0, false⟩

/-- `out(s)` (R8): OLEN is the length, OBUF starts with the string, and every byte of OBUF at or beyond
the length becomes unspecified (R38): it is unlisted and its free value is drawn anew. -/
def out (bs : List Byte) (s : State) : State :=
  { s with
    olen := BitVec.ofNat 8 bs.length
    mem := Memory.store (Memory.clearObuf s.mem) obufBase bs
    outDraw := s.outDraw + 1 }

/-- Command completion (R232): ERR and FAIL are written, DONE rises, BUSY falls, the phase is IDLE. -/
def complete (e : ErrCode) (s : State) : State :=
  { s with err := e, fail := failFlag e, done := true, phase := .idle }

/-- The completion of a command that ends at its last line: `out`, RES0, RESID, ERR <- OK. -/
def succeed (bs : List Byte) (r0 : Res0) (resid : Residue) (s : State) : State :=
  complete .ok { out bs s with res0 := r0, resid := resid }

/-- A command error that leaves RES0 at `r0` (R250): OLEN 0, OBUF unspecified, RESID 0, no input changed. -/
def failKeeping (e : ErrCode) (r0 : Res0) (s : State) : State :=
  complete e { out [] s with res0 := r0, resid := 0 }

/-- `fail <CODE>` (R250, R232). -/
def failWith (e : ErrCode) (s : State) : State := failKeeping e noRes0 s

/-- Command start with word `w` (R230). Nothing else changes: ERR, OLEN, OBUF, RES0, RESID keep their values. -/
def startCommand (w : Word) (s : State) : State :=
  { s with cmd := w, phase := .run w s.tplchk, done := false, fail := false }

/-- A refused read (R67, R262): HFAULT is set, the response is `error` with unspecified data (log entry 6). -/
def refuseRead (s : State) : State :=
  { s with
    hfault := true
    resp := some (.readError (Config.freeWord s.portDraw))
    portDraw := s.portDraw + 1 }

/-- A refused write (R67, R262): HFAULT is set and the response is `error`. -/
def refuseWrite (s : State) : State := { s with hfault := true, resp := some .writeError }

/-- Reset (R42, R281, R283, R284): every register takes its reset value and all three buffers become
unspecified. What is outside the block (the pins, the schedule, the port's last answer) is kept, and the
draw counters move on so that the new contents are fresh free values. -/
def resetBlock (s : State) : State :=
  { State.reset with
    rstN := s.rstN
    inReset := s.inReset
    pending := s.pending
    resp := s.resp
    inDraw := s.inDraw + 1
    outDraw := s.outDraw + 1
    portDraw := s.portDraw }

end Sys2Proof.Machine
end

