-- ==== Sys2Proof/Machine/Operands.lean ====
section
/-! DEFINITION. The operands of the commands (spec/30_encoding.md R93; spec/00_scope.md R7, R8): the input
string I, the prefix H, the output string, the sampled TPLCHK, and the byte-order and bit-order helpers. -/

namespace Sys2Proof.Machine

/-- The `n` buffer bytes from a window offset on. -/
def readBytes (s : State) (a n : Nat) : List Byte := (List.range n).map fun i => readByte s (a + i)

/-- `I = IBUF[0 .. ILEN-1]` (R8, R29). -/
def inputString (s : State) : List Byte := readBytes s ibufBase s.ilen.toNat

/-- `H = HBUF[0 .. HLEN-1]` (R8, R30). -/
def prefixString (s : State) : List Byte := readBytes s hbufBase s.hlen.toNat

/-- `OBUF[0 .. OLEN-1]`, the operand of MOV.O2I (R236). -/
def outputString (s : State) : List Byte := readBytes s obufBase s.olen.toNat

/-- The value of CTRL.TPLCHK a command uses: the engine's private copy, taken at command start (R25, R230,
R231). With no command running it is the value a start would sample now (log entry 8). -/
def sampledTplchk (s : State) : Bool :=
  match s.phase with
  | .idle => s.tplchk
  | .run _ t => t

/-- `BE(s)`: the natural number a byte string denotes read big-endian (R7). -/
def beNat (bs : List Byte) : Nat := bs.foldl (fun n b => 256 * n + b.toNat) 0

/-- `BE4(x)`: the four bytes of a word, most significant first (R148). -/
def be4 (x : Word) : List Byte :=
  [x.extractLsb' 24 8, x.extractLsb' 16 8, x.extractLsb' 8 8, x.extractLsb' 0 8]

/-- The bits of a value as R191 writes them: most significant bit first. -/
def bitsOf {n : Nat} (x : BitVec n) : List Bool := (List.range n).map fun i => x.getLsbD (n - 1 - i)

/-- The number a bit string denotes, most significant bit first (R191). -/
def natOfBits (bits : List Bool) : Nat := bits.foldl (fun n b => 2 * n + bitNat b) 0

/-- The input bytes read as 5-bit symbols, one per byte in bits 4:0 (R35). -/
def symbolsOf (bs : List Byte) : List Symbol := bs.map fun b => b.setWidth 5

/-- Symbols as bytes: bits 4:0 hold the symbol, bits 7:5 are 0 (R37). -/
def bytesOfSymbols (v : List Symbol) : List Byte := v.map fun x => x.setWidth 8

/-- "IBUF[i] > 31 for some i < ILEN" (R195, R210, R215, R220): some input byte is no symbol. -/
def hasNonSymbol (bs : List Byte) : Bool := bs.any fun b => decide (31 < b.toNat)

/-- A character the prefix may hold: 33..126 and no upper-case letter (R208). -/
def prefixChar (c : Byte) : Bool :=
  decide (33 ≤ c.toNat ∧ c.toNat ≤ 126) && !decide (0x41 ≤ c.toNat ∧ c.toNat ≤ 0x5A)

/-- "HLEN < 1 or HLEN > 83" (R208, R210). -/
def badPrefixLength (s : State) : Bool :=
  decide (s.hlen.toNat < Config.hrpMin ∨ Config.hrpMax < s.hlen.toNat)

/-- "some character of H fails rule R208". -/
def hasBadPrefixChar (h : List Byte) : Bool := h.any fun c => !prefixChar c

end Sys2Proof.Machine
end

