-- ==== Sys2Proof/Machine/Base58.lean ====
section
/-! DEFINITION. Base-58 big-integer conversion, B58.ENC and B58.DEC (spec/40_base58.md). -/

namespace Sys2Proof.Machine

/-- The ASCII code of a character, as a byte. -/
def ascii (c : Char) : Byte := BitVec.ofNat 8 c.toNat

/-- The base-58 alphabet, digit 0 first: the rows of R120's table. -/
def alphabet58 : List Byte :=
  (['1', '2', '3', '4', '5', '6', '7', '8'] ++
   ['9', 'A', 'B', 'C', 'D', 'E', 'F', 'G'] ++
   ['H', 'J', 'K', 'L', 'M', 'N', 'P', 'Q'] ++
   ['R', 'S', 'T', 'U', 'V', 'W', 'X', 'Y'] ++
   ['Z', 'a', 'b', 'c', 'd', 'e', 'f', 'g'] ++
   ['h', 'i', 'j', 'k', 'm', 'n', 'o', 'p'] ++
   ['q', 'r', 's', 't', 'u', 'v', 'w', 'x'] ++
   ['y', 'z']).map ascii

/-- `A58[d]`, the character of a digit 0..57 (R120). -/
def a58 (d : Nat) : Byte := alphabet58.getD d 0

/-- `V58(c)`, the digit of a character, or none (R120). -/
def v58 (c : Byte) : Option Nat := alphabet58.findIdx? fun x => x == c

/-- The loop of R121, `while N > 0: D <- (N mod 58) ‖ D; N <- N div 58`, with a bound on its turns. -/
def digits58 : (fuel : Nat) → (n : Nat) → (d : List Nat) → List Nat
  | 0, _, d => d
  | k + 1, n, d => if n = 0 then d else digits58 k (n / 58) (n % 58 :: d)

/-- The shortest byte string that denotes a number (R122), with a bound on its length. -/
def bytesOfNat : (fuel : Nat) → (n : Nat) → (d : List Byte) → List Byte
  | 0, _, d => d
  | k + 1, n, d => if n = 0 then d else bytesOfNat k (n / 256) (BitVec.ofNat 8 (n % 256) :: d)

/-- How many leading elements of a byte string equal `x`. -/
def leadingCount (x : Byte) (s : List Byte) : Nat := (s.takeWhile fun b => b == x).length

/-- `B58ENC(s)` (R121). Two base-58 digits for each byte bound the loop, since 256 < 58 * 58. -/
def b58enc (s : List Byte) : List Byte :=
  List.replicate (leadingCount 0 s) (ascii '1') ++ (digits58 (2 * s.length) (beNat s) []).map a58

/-- The digit of a character of a text over the alphabet. -/
def digitOf (c : Byte) : Nat := (v58 c).getD 0

/-- `N = Σ V58(t[i]) * 58^(m-1-i)` (R122). -/
def valueOf58 (t : List Byte) : Nat := t.foldl (fun n c => 58 * n + digitOf c) 0

/-- `B58DEC(t)` (R122). A text of m characters denotes a number below 256^m, which bounds the loop. -/
def b58dec (t : List Byte) : Option (List Byte) :=
  if t.any fun c => (v58 c).isNone then none
  else some (List.replicate (leadingCount (ascii '1') t) 0 ++ bytesOfNat t.length (valueOf58 t) [])

/-- B58.ENC (R125). -/
def execB58Enc (s : State) : Host.Outcome State Fault Refusal :=
  if Config.b58RawMax < s.ilen.toNat then .next (failWith .len s)
  else .next (succeed (b58enc (inputString s)) noRes0 0 s)

/-- B58.DEC (R128). -/
def execB58Dec (s : State) : Host.Outcome State Fault Refusal :=
  if 128 < s.ilen.toNat then .next (failWith .len s)
  else
    match b58dec (inputString s) with
    | none => .next (failWith .b58Alphabet s)
    | some b => .next (succeed b noRes0 0 s)

/-- New most significant digits while a carry is left (R124), with a bound on their number. -/
def appendCarry (base : Nat) : (fuel : Nat) → (carry : Nat) → List Nat
  | 0, _ => []
  | k + 1, carry => if carry = 0 then [] else carry % base :: appendCarry base k (carry / base)

/-- One input digit into the digit array, least significant digit first: multiply by `mul`, add the carry,
keep the remainder, pass the quotient on (R124). -/
def absorb (base mul : Nat) : (digits : List Nat) → (carry : Nat) → List Nat
  | [], carry => appendCarry base 2 carry
  | d :: ds, carry => (carry + mul * d) % base :: absorb base mul ds ((carry + mul * d) / base)

/-- `B58ENC` by the digit array of R124 (information in the spec; the values are those of R121). -/
def b58encArray (s : List Byte) : List Byte :=
  let z := leadingCount 0 s
  List.replicate z (ascii '1') ++
    (((s.drop z).foldl (fun ds b => absorb 58 256 ds b.toNat) []).reverse.map a58)

/-- `B58DEC` by the byte array of R124, on a text over the alphabet. -/
def b58decArray (t : List Byte) : Option (List Byte) :=
  let z := leadingCount (ascii '1') t
  if t.any fun c => (v58 c).isNone then none
  else some (List.replicate z 0 ++
    (((t.drop z).foldl (fun bs c => absorb 256 58 bs (digitOf c)) []).reverse.map (BitVec.ofNat 8)))

end Sys2Proof.Machine
end

