-- ==== Sys2Proof/Machine/Hash256.lean ====
section
/-! DEFINITION. SHA-256, the double hash and its truncation, HASH256 and CKSUM4 (spec/41_hash256.md). -/

namespace Sys2Proof.Machine

/-- `ROTR^n(x)` (R140). -/
def rotr (n : Nat) (x : Word) : Word := (x >>> n) ||| (x <<< (32 - n))

/-- `Ch` (R140). -/
def shaCh (x y z : Word) : Word := (x &&& y) ^^^ (~~~x &&& z)

/-- `Maj` (R140). -/
def shaMaj (x y z : Word) : Word := (x &&& y) ^^^ (x &&& z) ^^^ (y &&& z)

/-- `Σ0` (R140). -/
def bigSigma0 (x : Word) : Word := rotr 2 x ^^^ rotr 13 x ^^^ rotr 22 x

/-- `Σ1` (R140). -/
def bigSigma1 (x : Word) : Word := rotr 6 x ^^^ rotr 11 x ^^^ rotr 25 x

/-- `σ0` (R140). -/
def smallSigma0 (x : Word) : Word := rotr 7 x ^^^ rotr 18 x ^^^ (x >>> 3)

/-- `σ1` (R140). -/
def smallSigma1 (x : Word) : Word := rotr 17 x ^^^ rotr 19 x ^^^ (x >>> 10)

/-- The round constants `K[0..63]`, eight to a line (R141). -/
def roundConstants : List Word :=
  [0x428a2f98, 0x71374491, 0xb5c0fbcf, 0xe9b5dba5, 0x3956c25b, 0x59f111f1, 0x923f82a4, 0xab1c5ed5] ++
  [0xd807aa98, 0x12835b01, 0x243185be, 0x550c7dc3, 0x72be5d74, 0x80deb1fe, 0x9bdc06a7, 0xc19bf174] ++
  [0xe49b69c1, 0xefbe4786, 0x0fc19dc6, 0x240ca1cc, 0x2de92c6f, 0x4a7484aa, 0x5cb0a9dc, 0x76f988da] ++
  [0x983e5152, 0xa831c66d, 0xb00327c8, 0xbf597fc7, 0xc6e00bf3, 0xd5a79147, 0x06ca6351, 0x14292967] ++
  [0x27b70a85, 0x2e1b2138, 0x4d2c6dfc, 0x53380d13, 0x650a7354, 0x766a0abb, 0x81c2c92e, 0x92722c85] ++
  [0xa2bfe8a1, 0xa81a664b, 0xc24b8b70, 0xc76c51a3, 0xd192e819, 0xd6990624, 0xf40e3585, 0x106aa070] ++
  [0x19a4c116, 0x1e376c08, 0x2748774c, 0x34b0bcb5, 0x391c0cb3, 0x4ed8aa4a, 0x5b9cca4f, 0x682e6ff3] ++
  [0x748f82ee, 0x78a5636f, 0x84c87814, 0x8cc70208, 0x90befffa, 0xa4506ceb, 0xbef9a3f7, 0xc67178f2]

/-- The eight words of the chaining value, and the working variables a to h (R145). -/
structure Chain where
  a : Word
  b : Word
  c : Word
  d : Word
  e : Word
  f : Word
  g : Word
  h : Word
  deriving DecidableEq, Repr

/-- The initial chaining value `H0[0..7]` (R141). -/
def initialChain : Chain :=
  ⟨0x6a09e667, 0xbb67ae85, 0x3c6ef372, 0xa54ff53a, 0x510e527f, 0x9b05688c, 0x1f83d9ab, 0x5be0cd19⟩

/-- A 64-bit number as eight bytes, most significant first (R142, `len8`). -/
def be8 (x : BitVec 64) : List Byte := (List.range 8).map fun i => x.extractLsb' (56 - 8 * i) 8

/-- The number of zero bytes of the padding: the smallest k with `(L + 1 + k) mod 64 = 56` (R142). -/
def padZeros (len : Nat) : Nat := (119 - len % 64) % 64

/-- The padded message (R142). -/
def padMessage (m : List Byte) : List Byte :=
  m ++ [0x80] ++ List.replicate (padZeros m.length) 0 ++ be8 (BitVec.ofNat 64 (8 * m.length))

/-- `B = floor((L + 8) / 64) + 1` (R142). -/
def blockCount (len : Nat) : Nat := (len + 8) / 64 + 1

/-- Four bytes to a word, most significant first (R143). -/
def wordsOfBytes : List Byte → List Word
  | b0 :: b1 :: b2 :: b3 :: rest => BitVec.ofNat 32 (beNat [b0, b1, b2, b3]) :: wordsOfBytes rest
  | _ => []

/-- `n` more words of the message schedule. The list holds the schedule so far, newest word first, so
`W[t-2]`, `W[t-7]`, `W[t-15]`, `W[t-16]` stand at 1, 6, 14 and 15 (R144). -/
def extendSchedule : (n : Nat) → (w : List Word) → List Word
  | 0, w => w
  | n + 1, w =>
    extendSchedule n
      ((smallSigma1 (w.getD 1 0) + w.getD 6 0 + smallSigma0 (w.getD 14 0) + w.getD 15 0) :: w)

/-- `W[0..63]` of a block's sixteen message words (R144). -/
def schedule (m : List Word) : List Word := (extendSchedule 48 m.reverse).reverse

/-- One round (R145): all eight assignments use the values from before the round. -/
def shaRound (k w : Word) (v : Chain) : Chain :=
  let t1 := v.h + bigSigma1 v.e + shaCh v.e v.f v.g + k + w
  let t2 := bigSigma0 v.a + shaMaj v.a v.b v.c
  ⟨t1 + t2, v.a, v.b, v.c, v.d + t1, v.e, v.f, v.g⟩

/-- The rounds of a block, one for each constant and schedule word (R145). -/
def shaRounds : (ks ws : List Word) → Chain → Chain
  | k :: ks, w :: ws, v => shaRounds ks ws (shaRound k w v)
  | _, _, v => v

/-- Compression of one block of sixteen words into the chaining value (R145). -/
def compress (hv : Chain) (m : List Word) : Chain :=
  let v := shaRounds roundConstants (schedule m) hv
  ⟨hv.a + v.a, hv.b + v.b, hv.c + v.c, hv.d + v.d, hv.e + v.e, hv.f + v.f, hv.g + v.g, hv.h + v.h⟩

/-- `n` blocks in order (R148). -/
def compressBlocks : (n : Nat) → (words : List Word) → Chain → Chain
  | 0, _, hv => hv
  | n + 1, ws, hv => compressBlocks n (ws.drop 16) (compress hv (ws.take 16))

/-- The digest of a chaining value, `BE4(Hv[0]) ‖ ... ‖ BE4(Hv[7])` (R148). -/
def digest (hv : Chain) : List Byte :=
  be4 hv.a ++ be4 hv.b ++ be4 hv.c ++ be4 hv.d ++ be4 hv.e ++ be4 hv.f ++ be4 hv.g ++ be4 hv.h

/-- `SHA256(m)` (R148). -/
def sha256 (m : List Byte) : List Byte :=
  digest (compressBlocks (blockCount m.length) (wordsOfBytes (padMessage m)) initialChain)

/-- `H256(m) = SHA256(SHA256(m))` (R150). -/
def h256 (m : List Byte) : List Byte := sha256 (sha256 m)

/-- `CK4(m) = H256(m)[0..3]` (R151). -/
def ck4 (m : List Byte) : List Byte := (h256 m).take 4

/-- HASH256 (R152). -/
def execHash256 (s : State) : Host.Outcome State Fault Refusal :=
  if 128 < s.ilen.toNat then .next (failWith .len s)
  else .next (succeed (h256 (inputString s)) noRes0 0 s)

/-- CKSUM4 (R153). -/
def execCksum4 (s : State) : Host.Outcome State Fault Refusal :=
  if 128 < s.ilen.toNat then .next (failWith .len s)
  else .next (succeed (ck4 (inputString s)) noRes0 0 s)

end Sys2Proof.Machine
end

