-- ==== Sys2Proof/Machine/Base58Check.lean ====
section
/-! DEFINITION. Base58Check, B58C.ENC and B58C.DEC (spec/42_base58check.md). -/

namespace Sys2Proof.Machine

/-- `IMG(v, p) = v ‖ p ‖ CK4(v ‖ p)` (R170). -/
def image (v : Byte) (p : List Byte) : List Byte := v :: p ++ ck4 (v :: p)

/-- B58C.ENC ver (R173). -/
def execB58cEnc (ver : Byte) (s : State) : Host.Outcome State Fault Refusal :=
  if Config.payloadMax < s.ilen.toNat then .next (failWith .len s)
  else .next (succeed (b58enc (image ver (inputString s))) noRes0 0 s)

/-- The version byte and payload of a decoded image, `d[0]` and `d[1 .. L-5]`, when it has room for a
version byte and a checksum and the checksum is right (R175, lines 4 to 7). -/
def openImage (d : List Byte) : Option (Byte × List Byte) :=
  if d.length < 5 then none
  else if ck4 (d.take (d.length - 4)) ≠ d.drop (d.length - 4) then none
  else
    match d.take (d.length - 4) with
    | [] => none
    | ver :: p => some (ver, p)

/-- Lines 2 to 7 of R175: none for the causes (a), too short and (b), which share one code (R177). -/
def b58cOpen (t : List Byte) : Option (Byte × List Byte) := (b58dec t).bind openImage

/-- What the template test finds (R175 lines 8 to 14, R179). -/
inductive TemplateResult where
  /-- TPLCHK = 0 -/
  | notTested
  /-- no VALID entry carries the version -/
  | unknownVersion
  /-- no VALID entry of the version carries the length -/
  | wrongLength
  /-- the smallest index that carries both -/
  | hit (idx : Nat)
  deriving DecidableEq, Repr

/-- The entry is in the set S: VALID, with the version (R175, line 9). -/
def Template.hasVersion (t : Template) (ver : Byte) : Bool := t.valid && t.version == ver

/-- The entry is in the set M: in S, with the payload length (R175, line 11). -/
def Template.matches (t : Template) (ver : Byte) (plen : Nat) : Bool :=
  t.hasVersion ver && t.payLen.toNat == plen

/-- The template test (R175, lines 8 to 14). -/
def templateTest (tplchk : Bool) (tpl : Vector Template 16) (ver : Byte) (plen : Nat) : TemplateResult :=
  if tplchk then
    if tpl.toList.any fun t => t.hasVersion ver then
      match tpl.toList.findIdx? fun t => t.matches ver plen with
      | some idx => .hit idx
      | none => .wrongLength
    else .unknownVersion
  else .notTested

/-- The version byte and payload length of a decode, with no template hit (R181). -/
def decodedRes0 (ver : Byte) (plen : Nat) : Res0 := ⟨ver, BitVec.ofNat 8 plen, 0, false⟩

/-- The completion of B58C.DEC by the outcome of the template test (R175 lines 8 to 16, R181). -/
def finishB58cDec (ver : Byte) (p : List Byte) (s : State) : TemplateResult → State
  | .notTested => succeed p (decodedRes0 ver p.length) 0 s
  | .unknownVersion => failKeeping .b58Prefix (decodedRes0 ver p.length) s
  | .wrongLength => failWith .b58CkLen s
  | .hit idx =>
    succeed p { decodedRes0 ver p.length with tplIdx := BitVec.ofNat 4 idx, tplHit := true } 0 s

/-- B58C.DEC (R175). -/
def execB58cDec (s : State) : Host.Outcome State Fault Refusal :=
  if 128 < s.ilen.toNat then .next (failWith .len s)
  else
    match b58cOpen (inputString s) with
    | none => .next (failWith .b58CkLen s)
    | some (ver, p) => .next (finishB58cDec ver p s (templateTest (sampledTplchk s) s.tpl ver p.length))

end Sys2Proof.Machine
end

