-- ==== Sys2Proof/Machine/Bech32.lean ====
section
/-! DEFINITION. The Bech32 and Bech32m checksum generator and encoder, B32.POLYMOD, B32.CKSUM and B32.ENC
(spec/44_bech32_checksum.md). -/

namespace Sys2Proof.Machine

/-- The Bech32 alphabet, symbol 0 first, as ASCII codes: the rows of R205's table. -/
def alphabet32 : List Byte :=
  [0x71, 0x70, 0x7A, 0x72, 0x79, 0x39, 0x78, 0x38] ++
  [0x67, 0x66, 0x32, 0x74, 0x76, 0x64, 0x77, 0x30] ++
  [0x73, 0x33, 0x6A, 0x6E, 0x35, 0x34, 0x6B, 0x68] ++
  [0x63, 0x65, 0x36, 0x6D, 0x75, 0x61, 0x37, 0x6C]

/-- `A32[s]` (R205). -/
def a32 (x : Symbol) : Byte := alphabet32.getD x.toNat 0

/-- The separator character `'1'` (R220). -/
def separator : Byte := 0x31

/-- XOR a constant in when a bit of `top` is set (R206). -/
def xorIf (b : Bool) (k c : Residue) : Residue := if b then c ^^^ k else c

/-- One symbol into the checksum register (R206). -/
def polymodStep (c : Residue) (x : Symbol) : Residue :=
  let top : Symbol := (c >>> 25).setWidth 5
  let c0 : Residue := ((c &&& 0x1FFFFFF) <<< 5) ^^^ x.setWidth 30
  xorIf (top.getLsbD 4) 0x2A1462B3 <|
    xorIf (top.getLsbD 3) 0x3D4233DD <|
      xorIf (top.getLsbD 2) 0x1EA119FA <|
        xorIf (top.getLsbD 1) 0x26508E6D <|
          xorIf (top.getLsbD 0) 0x3B6A57B2 c0

/-- `POLYMOD(v)` (R206). -/
def polymod (v : List Symbol) : Residue := v.foldl polymodStep 1

/-- `HRPX(h)` (R207): the high 3 bits of every character, one symbol 0, the low 5 bits of every character. -/
def hrpExpand (h : List Byte) : List Symbol :=
  (h.map fun (c : Byte) => (c >>> 5).setWidth 5) ++ [0] ++ (h.map fun (c : Byte) => (c &&& 31).setWidth 5)

/-- The variant constant `XC(VAR)` (R209). -/
def variantConstant : Variant → Residue
  | .bech32 => 0x00000001
  | .bech32m => 0x2BC830A3

/-- The value p of R215 line 5. -/
def checksumValue (var : Variant) (h : List Byte) (v : List Symbol) : Residue :=
  polymod (hrpExpand h ++ v ++ [0, 0, 0, 0, 0, 0]) ^^^ variantConstant var

/-- `C[k] = (p >> (5*(5-k))) ∧ 31` for k = 0..5 (R215 line 6). -/
def checksumSymbols (p : Residue) : List Symbol :=
  (List.range 6).map fun k => (p >>> (5 * (5 - k))).setWidth 5

/-- The packed text of R220 line 7. -/
def packText (var : Variant) (h : List Byte) (v : List Symbol) : List Byte :=
  h ++ [separator] ++ v.map a32 ++ (checksumSymbols (checksumValue var h v)).map a32

/-- B32.POLYMOD (R210): OLEN is 0 and the raw residue is in RESID. -/
def execB32Polymod (s : State) : Host.Outcome State Fault Refusal :=
  if 128 < s.ilen.toNat then .next (failWith .len s)
  else if badPrefixLength s then .next (failWith .hrp s)
  else if hasBadPrefixChar (prefixString s) then .next (failWith .hrp s)
  else if hasNonSymbol (inputString s) then .next (failWith .value s)
  else .next (succeed [] noRes0 (polymod (hrpExpand (prefixString s) ++ symbolsOf (inputString s))) s)

/-- B32.CKSUM var (R215). -/
def execB32Cksum (var : Variant) (s : State) : Host.Outcome State Fault Refusal :=
  if 128 < s.ilen.toNat then .next (failWith .len s)
  else if badPrefixLength s then .next (failWith .hrp s)
  else if hasBadPrefixChar (prefixString s) then .next (failWith .hrp s)
  else if hasNonSymbol (inputString s) then .next (failWith .value s)
  else
    let p := checksumValue var (prefixString s) (symbolsOf (inputString s))
    .next (succeed (bytesOfSymbols (checksumSymbols p)) noRes0 p s)

/-- B32.ENC var (R220): the total length is tested between the prefix length and the prefix characters. -/
def execB32Enc (var : Variant) (s : State) : Host.Outcome State Fault Refusal :=
  if 128 < s.ilen.toNat then .next (failWith .len s)
  else if badPrefixLength s then .next (failWith .hrp s)
  else if Config.b32TotalMax < s.hlen.toNat + 1 + s.ilen.toNat + 6 then .next (failWith .b32TooLong s)
  else if hasBadPrefixChar (prefixString s) then .next (failWith .hrp s)
  else if hasNonSymbol (inputString s) then .next (failWith .value s)
  else
    .next (succeed (packText var (prefixString s) (symbolsOf (inputString s))) noRes0
      (checksumValue var (prefixString s) (symbolsOf (inputString s))) s)

end Sys2Proof.Machine
end

