-- ==== Sys2Proof/Machine/Control.lean ====
section
/-! DEFINITION. The housekeeping commands and illegal words (spec/45_control.md). -/

namespace Sys2Proof.Machine

/-- NOP (R235): ERR <- OK; OLEN, OBUF, RES0, RESID and every input are left unchanged. -/
def execNop (s : State) : Host.Outcome State Fault Refusal := .next (complete .ok s)

/-- MOV.O2I off (R236): copy `OBUF[0 .. OLEN-1]` to `IBUF[OFF ..]` and set `ILEN <- OFF + OLEN`. On failure
nothing but ERR and the completion bits is written; OLEN, OBUF, RES0 and RESID are always kept. -/
def execMovO2I (off : Byte) (s : State) : Host.Outcome State Fault Refusal :=
  if 128 < off.toNat + s.olen.toNat then .next (complete .len s)
  else
    .next (complete .ok { writeBytes (ibufBase + off.toNat) (outputString s) s with
      ilen := BitVec.ofNat 8 (off.toNat + s.olen.toNat) })

/-- The completion of an illegal word (R98, R238): E_ILLEGAL_CMD; no operand is read. -/
def completeIllegal (s : State) : State := failWith .illegalCmd s

end Sys2Proof.Machine
end

