-- ==== Sys2Proof/Machine/Regroup.lean ====
section
/-! DEFINITION. Regrouping between bytes and 5-bit symbols, B32.GROUP and B32.UNGROUP
(spec/43_bech32_regroup.md). The meanings use the bit-stream definition of R192; its "equivalent accumulator
form" stands beside it. -/

namespace Sys2Proof.Machine

/-- `BITS8(b)` (R190, R191). -/
def bits8 (b : List Byte) : List Bool := b.flatMap bitsOf

/-- `BITS5(v)` (R190, R191). -/
def bits5 (v : List Symbol) : List Bool := v.flatMap bitsOf

/-- The symbols whose `BITS5` is a stream of a multiple of 5 bits. -/
def takeSymbols : List Bool → List Symbol
  | b0 :: b1 :: b2 :: b3 :: b4 :: rest => BitVec.ofNat 5 (natOfBits [b0, b1, b2, b3, b4]) :: takeSymbols rest
  | _ => []

/-- The bytes whose `BITS8` is a stream of a multiple of 8 bits. -/
def takeBytes : List Bool → List Byte
  | b0 :: b1 :: b2 :: b3 :: b4 :: b5 :: b6 :: b7 :: rest =>
    BitVec.ofNat 8 (natOfBits [b0, b1, b2, b3, b4, b5, b6, b7]) :: takeBytes rest
  | _ => []

/-- `k = ceil(8n / 5)` (R192). -/
def groupCount (n : Nat) : Nat := (8 * n + 4) / 5

/-- `GROUP(b)` (R192): the bit stream, padded with `5k - 8n` zero bits, in groups of five. -/
def group (b : List Byte) : List Symbol :=
  takeSymbols (bits8 b ++ List.replicate (5 * groupCount b.length - 8 * b.length) false)

/-- `UNGROUP(v)` (R192), none for `bad`: five or more bits are left over, or a left-over bit is 1. -/
def ungroup (v : List Symbol) : Option (List Byte) :=
  let q := 5 * v.length / 8
  let r := 5 * v.length - 8 * q
  if 5 ≤ r then none
  else if ((bits5 v).drop (8 * q)).any id then none
  else some (takeBytes ((bits5 v).take (8 * q)))

/-- B32.GROUP (R193). -/
def execB32Group (s : State) : Host.Outcome State Fault Refusal :=
  if Config.groupMax < s.ilen.toNat then .next (failWith .len s)
  else .next (succeed (bytesOfSymbols (group (inputString s))) noRes0 0 s)

/-- B32.UNGROUP (R195). -/
def execB32Ungroup (s : State) : Host.Outcome State Fault Refusal :=
  if 128 < s.ilen.toNat then .next (failWith .len s)
  else if hasNonSymbol (inputString s) then .next (failWith .value s)
  else
    match ungroup (symbolsOf (inputString s)) with
    | none => .next (failWith .b32Format s)
    | some b => .next (succeed b noRes0 0 s)

/-- The state of the accumulator form (R192): `acc`, `bits` and the output so far. -/
structure Regrouper (α : Type) where
  acc : Nat
  bits : Nat
  out : List α
  deriving DecidableEq, Repr

/-- `while bits ≥ w: bits <- bits - w; out <- out ‖ ((acc >> bits) ∧ (2^w - 1))`, with a bound on its turns. -/
def emit (w : Nat) : (fuel : Nat) → Regrouper (BitVec w) → Regrouper (BitVec w)
  | 0, g => g
  | k + 1, g =>
    if w ≤ g.bits then
      emit w k ⟨g.acc, g.bits - w, g.out ++ [BitVec.ofNat w (g.acc >>> (g.bits - w))]⟩
    else g

/-- One input element of `i` bits into the accumulator; the unconsumed bits are kept (R192). -/
def feed {i : Nat} (w : Nat) (g : Regrouper (BitVec w)) (x : BitVec i) : Regrouper (BitVec w) :=
  let e := emit w i ⟨(g.acc <<< i) ||| x.toNat, g.bits + i, g.out⟩
  { e with acc := e.acc % 2 ^ e.bits }

/-- The accumulator form of `GROUP` (R192). -/
def groupByAccumulator (b : List Byte) : List Symbol :=
  let g := b.foldl (feed 5) ⟨0, 0, []⟩
  if 0 < g.bits then g.out ++ [BitVec.ofNat 5 (g.acc <<< (5 - g.bits))] else g.out

/-- The accumulator form of `UNGROUP` (R192). -/
def ungroupByAccumulator (v : List Symbol) : Option (List Byte) :=
  let g := v.foldl (feed 8) ⟨0, 0, []⟩
  if 5 ≤ g.bits ∨ g.acc ≠ 0 then none else some g.out

end Sys2Proof.Machine
end

