-- ==== Sys2Proof/Machine/Dispatch.lean ====
section
/-! DEFINITION. One arm per command: the engine's evaluation of a decoded command (spec/45_control.md R232). -/

namespace Sys2Proof.Machine

def exec (i : Instr) (s : State) : Host.Outcome State Fault Refusal :=
  match i with
  | .nop => Sys2Proof.Machine.execNop s
  | .b58cEnc ver => Sys2Proof.Machine.execB58cEnc ver s
  | .b58cDec => Sys2Proof.Machine.execB58cDec s
  | .b58Enc => Sys2Proof.Machine.execB58Enc s
  | .b58Dec => Sys2Proof.Machine.execB58Dec s
  | .hash256 => Sys2Proof.Machine.execHash256 s
  | .cksum4 => Sys2Proof.Machine.execCksum4 s
  | .b32Group => Sys2Proof.Machine.execB32Group s
  | .b32Ungroup => Sys2Proof.Machine.execB32Ungroup s
  | .b32Polymod => Sys2Proof.Machine.execB32Polymod s
  | .b32Cksum var => Sys2Proof.Machine.execB32Cksum var s
  | .b32Enc var => Sys2Proof.Machine.execB32Enc var s
  | .movO2I off => Sys2Proof.Machine.execMovO2I off s

end Sys2Proof.Machine
end

