-- ==== Sys2Proof/Machine/HostPort.lean ====
section
/-! DEFINITION. The register port: the map of the window and the host's reads and writes
(spec/20_memory.md R60 to R69; spec/10_state.md R22 to R37; spec/60_exceptions.md R262). -/

namespace Sys2Proof.Machine

/-- What an accepted offset and size select (R61). -/
inductive Target where
  | id
  | ctrl
  | cmd
  | status
  | err
  | ilen
  | hlen
  | olen
  | res0
  | resid
  | tpl (i : Fin 16)
  /-- a byte of HBUF, IBUF or OBUF, by its window offset -/
  | buffer (a : Nat)
  deriving DecidableEq, Repr

/-- The register at a word index of the window, 0x000 to 0x027 and 0x040 to 0x07F (R22, R61). -/
def registerAt (n : Nat) : Option Target :=
  match n with
  | 0 => some .id
  | 1 => some .ctrl
  | 2 => some .cmd
  | 3 => some .status
  | 4 => some .err
  | 5 => some .ilen
  | 6 => some .hlen
  | 7 => some .olen
  | 8 => some .res0
  | 9 => some .resid
  | _ => if 16 ≤ n ∧ n < 32 then some (.tpl (Fin.ofNat 16 (n - 16))) else none

/-- The accepted pairs of offset and size (R61, R63, R64): a register by an aligned 4-byte access only, a
buffer byte by a 1-byte access only. -/
def target (off : Offset) (size : Size) : Option Target :=
  match size with
  | .word => if off.toNat % 4 = 0 then registerAt (off.toNat / 4) else none
  | .byte => if isBuffer off.toNat then some (.buffer off.toNat) else none

/-- What may be read while BUSY: ID, CTRL, CMD and STATUS (R65, R68). -/
def readableWhileBusy : Target → Bool
  | .id | .ctrl | .cmd | .status => true
  | .err | .ilen | .hlen | .olen | .res0 | .resid | .tpl _ | .buffer _ => false

/-- What may be written while BUSY: CTRL alone (R66, R68). -/
def writableWhileBusy : Target → Bool
  | .ctrl => true
  | .id | .cmd | .status | .err | .ilen | .hlen | .olen | .res0 | .resid | .tpl _ | .buffer _ => false

/-- The read-only places: ID, ERR, OLEN, RES0, RESID and every byte of OBUF (R66). -/
def readOnly : Target → Bool
  | .id | .err | .olen | .res0 | .resid => true
  | .buffer a => isObuf a
  | .ctrl | .cmd | .status | .ilen | .hlen | .tpl _ => false

/-- The current value of a place, as a 32-bit value with reserved bits 0; a buffer byte stands in bits 7:0
(R65; log entry 13). -/
def readValue (s : State) : Target → Word
  | .id => Config.idWord
  | .ctrl => ctrlWord s
  | .cmd => s.cmd
  | .status => statusWord s
  | .err => (errNumber s.err).setWidth 32
  | .ilen => s.ilen.setWidth 32
  | .hlen => s.hlen.setWidth 32
  | .olen => s.olen.setWidth 32
  | .res0 => res0Word s.res0
  | .resid => s.resid.setWidth 32
  | .tpl i => templateWord (s.tpl.get i)
  | .buffer a => (readByte s a).setWidth 32

/-- CTRL written with `v` (R25, R66): bit 31 is a soft reset and discards the rest (R283). -/
def writeCtrl (v : Word) (s : State) : State :=
  if v.getLsbD 31 then resetBlock s else { s with ie := v.getLsbD 0, tplchk := v.getLsbD 1 }

/-- STATUS written with `v`: DONE is W1C, all else is ignored (R27, R66). -/
def writeStatus (v : Word) (s : State) : State := if v.getLsbD 1 then { s with done := false } else s

/-- The effect of an accepted write (R66). The read-only places are refused before (`hostWrite`). -/
def writeValue (v : Word) (s : State) : Target → State
  | .ctrl => writeCtrl v s
  | .cmd => startCommand v s
  | .status => writeStatus v s
  | .ilen => { s with ilen := v.setWidth 8 }
  | .hlen => { s with hlen := v.setWidth 8 }
  | .tpl i => { s with tpl := s.tpl.set i.val (templateOfWord v) i.isLt }
  | .buffer a => writeByte a (v.setWidth 8) s
  | .id | .err | .olen | .res0 | .resid => s

/-- The read is accepted: the pair selects a place, and BUSY does not protect it (R65). -/
def readTarget (s : State) (off : Offset) (size : Size) : Option Target :=
  (target off size).filter fun t => !busy s || readableWhileBusy t

/-- The write is accepted: the pair selects a place that is not read-only, and BUSY does not protect it (R66). -/
def writeTarget (s : State) (off : Offset) (size : Size) : Option Target :=
  (target off size).filter fun t => !readOnly t && (!busy s || writableWhileBusy t)

/-- `HostRead(off, n)` (R65). -/
def hostRead (off : Offset) (size : Size) (s : State) : State :=
  match readTarget s off size with
  | none => refuseRead s
  | some t => { s with resp := some (.readOk (readValue s t)) }

/-- `HostWrite(off, n, v)` (R66). -/
def hostWrite (off : Offset) (size : Size) (v : Word) (s : State) : State :=
  match writeTarget s off size with
  | none => refuseWrite s
  | some t => { writeValue v s t with resp := some .writeOk }

/-- An access while the block is in reset "is refused without effect (HFAULT cannot be set while in reset,
since it is held at 0)" (R280; log entry 10). -/
def readInReset (s : State) : State :=
  { s with resp := some (.readError (Config.freeWord s.portDraw)), portDraw := s.portDraw + 1 }

/-- As `readInReset`, for a write. -/
def writeInReset (s : State) : State := { s with resp := some .writeError }

end Sys2Proof.Machine
end

