-- ==== Sys2Proof/Machine/Engine.lean ====
section
/-! DEFINITION. The engine's step and the outside world's steps (spec/45_control.md R232;
spec/70_reset_and_hazards.md R280, R290). -/

namespace Sys2Proof.Machine

/-- Command completion (R232): decode the word the engine holds; an ILLEGAL word completes by R238, a
command by its rule. -/
def runCommand (w : Word) (s : State) : Host.Outcome State Fault Refusal :=
  match decodeWord w with
  | .illegal _ => .next (completeIllegal s)
  | .command i => exec i s

/-- The engine's turn: completion, "enabled iff `PHASE = RUN`" (R232). -/
def engineTurn (s : State) : Host.Outcome State Fault Refusal :=
  match s.phase with
  | .idle => .next s
  | .run w _ => runCommand w s

/-- A rising edge of `clk` that samples `rst_n` high ends the reset (R280). -/
def sampleReset (s : State) : State := if s.inReset && s.rstN then { s with inReset := false } else s

/-- The pin `rst_n` goes to a level (R280): low resets the block at once, whatever it was doing. -/
def setRstN (level : Bool) (s : State) : State :=
  if level then { s with rstN := true } else { resetBlock s with rstN := false, inReset := true }

/-- One event of the schedule, already taken off it (log entries 1, 9). -/
def handleEvent (e : Event) (s : State) : Host.Outcome State Fault Refusal :=
  match e with
  | .read off size => .next (if s.inReset then readInReset s else hostRead off size s)
  | .write off size v => .next (if s.inReset then writeInReset s else hostWrite off size v s)
  | .rstN level => .next (setRstN level s)
  | .clk completes => if completes then engineTurn (sampleReset s) else .next (sampleReset s)

/-- One step: the schedule's first event; with nothing scheduled a running command completes (it always
does, R232, R290) and an idle block stays as it is (log entry 2). -/
def stepState (s : State) : Host.Outcome State Fault Refusal :=
  match s.pending with
  | [] => engineTurn s
  | e :: rest => handleEvent e { s with pending := rest }

/-- The host's CMD write of `w` has just been accepted and the next edge of `clk` completes it (R230, R232;
log entry 3). The block is out of reset; everything else is kept. -/
def fetchReady (w : Word) (s : State) : State :=
  startCommand w { s with rstN := true, inReset := false, pending := .clk true :: s.pending }

end Sys2Proof.Machine
end

