-- ==== Sys2Proof/Machine/Step.lean ====
section
/-! DEFINITION. One step of the block, and a state whose next step runs a given command word. -/

namespace Sys2Proof.Machine

/-- One step (R60, R73, R232). -/
def step (s : State) : Host.Outcome State Fault Refusal := stepState s

/-- The state in which the very next step runs the command word numbered as the opcode table numbers it
(log entries 3, 14): the block fetches nothing (R21, R77), so the word stands where the engine takes it,
in CMD and in the engine's private copy. -/
def State.withFetchWord (s : State) (nbits w : Nat) : State := fetchReady (tableWord nbits w) s

end Sys2Proof.Machine
end

