-- ==== Sys2Proof/Machine/Script.lean ====
section
/-! DEFINITION. The host-script notation and its pseudo-operations, each expanded into the port accesses it
stands for (spec/30_encoding.md R100, R102). The assembler of the command mnemonics is in Decode.lean (R101). -/

namespace Sys2Proof.Machine

/-- `reg` of R100: a register name or a numeric offset. -/
inductive ScriptReg where
  | id
  | ctrl
  | cmd
  | status
  | err
  | ilen
  | hlen
  | olen
  | res0
  | resid
  | tpl (i : Fin 16)
  | offset (off : Offset)
  deriving DecidableEq, Repr

/-- `buf` of R100. -/
inductive ScriptBuf where
  | hbuf
  | ibuf
  | obuf
  deriving DecidableEq, Repr

/-- One line of a host script (R100, R102). -/
inductive ScriptLine where
  /-- `WR32 reg, value` -/
  | wr32 (r : ScriptReg) (v : Word)
  /-- `RD32 reg` -/
  | rd32 (r : ScriptReg)
  /-- `WR8 buf[i], value` -/
  | wr8 (b : ScriptBuf) (i : Nat) (v : Byte)
  /-- `RD8 buf[i]` -/
  | rd8 (b : ScriptBuf) (i : Nat)
  /-- `<mnemonic> [arg]` -/
  | command (i : Instr)
  /-- `B32M.ENC` -/
  | b32mEnc
  /-- `B32M.CKSUM` -/
  | b32mCksum
  /-- `MOV.O2I` with no argument -/
  | movO2INoArg
  /-- `WAIT`: `polls` reads of STATUS while the command runs, its completion, and the read that sees BUSY = 0
  (log entry 19) -/
  | wait (polls : Nat)
  /-- `ACK` -/
  | ack
  /-- `SRST` -/
  | srst
  /-- `LDI b0 b1 ...` and `LDI "text"` -/
  | ldi (bytes : List Byte)
  /-- `LDH "text"` -/
  | ldh (text : List Byte)
  /-- `TPLSET i, ver, len` -/
  | tplset (i : Fin 16) (ver len : Byte)
  /-- `EXPECT OBUF = ...` with `n` listed bytes -/
  | expectObuf (n : Nat)
  deriving DecidableEq, Repr

/-- `offset(reg)` (R22, R100). -/
def ScriptReg.off : ScriptReg → Offset
  | .id => 0x000
  | .ctrl => 0x004
  | .cmd => 0x008
  | .status => 0x00C
  | .err => 0x010
  | .ilen => 0x014
  | .hlen => 0x018
  | .olen => 0x01C
  | .res0 => 0x020
  | .resid => 0x024
  | .tpl i => BitVec.ofNat 9 (0x040 + 4 * i.val)
  | .offset off => off

/-- `base(buf) + i` (R61, R100). DESIGN CHOICE (log entry 22): R100 sets no bound on `i`, and an offset is a 9-bit
value (R41), so a sum beyond 0x1FF wraps modulo 512. -/
def ScriptBuf.off (b : ScriptBuf) (i : Nat) : Offset :=
  match b with
  | .hbuf => BitVec.ofNat 9 (hbufBase + i)
  | .ibuf => BitVec.ofNat 9 (ibufBase + i)
  | .obuf => BitVec.ofNat 9 (obufBase + i)

/-- `WR32 reg, value`. -/
def write32 (r : ScriptReg) (v : Word) : Event := .write r.off .word v

/-- `RD32 reg`. -/
def read32 (r : ScriptReg) : Event := .read r.off .word

/-- `WR8 buf[i], value`. -/
def write8 (b : ScriptBuf) (i : Nat) (v : Byte) : Event := .write (b.off i) .byte (v.setWidth 32)

/-- `RD8 buf[i]`. -/
def read8 (b : ScriptBuf) (i : Nat) : Event := .read (b.off i) .byte

/-- `WR8 buf[0], b0 ... WR8 buf[n-1], b(n-1)`. -/
def writeString (b : ScriptBuf) (bytes : List Byte) : List Event :=
  (List.range bytes.length).map fun i => write8 b i (bytes.getD i 0)

/-- What a line stands for (R100, R102). -/
def ScriptLine.expand : ScriptLine → List Event
  | .wr32 r v => [write32 r v]
  | .rd32 r => [read32 r]
  | .wr8 b i v => [write8 b i v]
  | .rd8 b i => [read8 b i]
  | .command i => [write32 .cmd (encode i)]
  | .b32mEnc => [write32 .cmd 0x0000010B]
  | .b32mCksum => [write32 .cmd 0x0000010A]
  | .movO2INoArg => [write32 .cmd 0x0000000C]
  | .wait polls => List.replicate polls (read32 .status) ++ [.clk true, read32 .status]
  | .ack => [write32 .status 0x00000002]
  | .srst => [write32 .ctrl 0x80000000]
  | .ldi bytes => writeString .ibuf bytes ++ [write32 .ilen (BitVec.ofNat 32 bytes.length)]
  | .ldh text => writeString .hbuf text ++ [write32 .hlen (BitVec.ofNat 32 text.length)]
  | .tplset i ver len =>
    [write32 (.tpl i) (0x80000000 + (ver.setWidth 32 <<< 8) + len.setWidth 32)]
  | .expectObuf n => read32 .olen :: (List.range n).map fun i => read8 .obuf i

/-- A script put before whatever else the schedule holds. -/
def runScript (script : List ScriptLine) (s : State) : State :=
  { s with pending := script.flatMap ScriptLine.expand ++ s.pending }

end Sys2Proof.Machine
end

