-- ==== Sys2Proof/Safety.lean ====
section
/-! DEFINITION. The terms claims are made in: what a completed command leaves, what a safe state is, and the
invariants of the block. -/

namespace Sys2Proof.Machine

/-- A command has completed with a code (R232): ERR, FAIL, DONE, BUSY. -/
def Completed (t : State) (e : ErrCode) : Prop :=
  t.err = e ∧ t.fail = decide (e ≠ .ok) ∧ t.done = true ∧ t.phase = .idle

/-- OLEN and the bytes `OBUF[0 .. OLEN-1]` are those of a string (R8, `out`). -/
def ObufHolds (t : State) (bs : List Byte) : Prop :=
  t.olen.toNat = bs.length ∧ ∀ i (h : i < bs.length), readByte t (0x180 + i) = bs[i]

/-- CTRL, CMD, HFAULT, HLEN, TPL, the pins, the schedule and the port are as before. -/
def ControlKept (s t : State) : Prop :=
  t.ie = s.ie ∧ t.tplchk = s.tplchk ∧ t.cmd = s.cmd ∧ t.hfault = s.hfault ∧ t.hlen = s.hlen ∧ t.tpl = s.tpl ∧
  t.rstN = s.rstN ∧ t.inReset = s.inReset ∧ t.pending = s.pending ∧ t.resp = s.resp ∧
  t.inDraw = s.inDraw ∧ t.portDraw = s.portDraw

/-- Every input is as before: `ControlKept`, ILEN, and every byte of memory outside OBUF. -/
def InputsKept (s t : State) : Prop :=
  ControlKept s t ∧ t.ilen = s.ilen ∧ ∀ a, ¬ (0x180 ≤ a ∧ a < 0x200) → readByte t a = readByte s a

/-- The command succeeded with an output string and values of RES0 and RESID; every input is kept. -/
def Succeeded (s t : State) (bs : List Byte) (r0 : Res0) (resid : Residue) : Prop :=
  Completed t .ok ∧ ObufHolds t bs ∧ t.res0 = r0 ∧ t.resid = resid ∧ InputsKept s t

/-- The command failed with a code, leaving RES0 at a value; OLEN and RESID are 0, every input is kept (R250). -/
def Failed (s t : State) (e : ErrCode) (r0 : Res0) : Prop :=
  Completed t e ∧ t.olen = 0 ∧ t.res0 = r0 ∧ t.resid = 0 ∧ InputsKept s t

/-- The codes a command can end with (R252). -/
def possibleErrors : Instr → List ErrCode
  | .nop => [.ok]
  | .b58cEnc _ => [.ok, .len]
  | .b58cDec => [.ok, .b58CkLen, .b58Prefix, .len]
  | .b58Enc => [.ok, .len]
  | .b58Dec => [.ok, .b58Alphabet, .len]
  | .hash256 => [.ok, .len]
  | .cksum4 => [.ok, .len]
  | .b32Group => [.ok, .len]
  | .b32Ungroup => [.ok, .b32Format, .value, .len]
  | .b32Polymod => [.ok, .hrp, .value, .len]
  | .b32Cksum _ => [.ok, .hrp, .value, .len]
  | .b32Enc _ => [.ok, .b32TooLong, .hrp, .value, .len]
  | .movO2I _ => [.ok, .len]

/-- The command writes OLEN, OBUF, RES0 and RESID: every command but NOP and MOV.O2I (R31, R32, R38). -/
def writesResults : Instr → Bool
  | .nop | .movO2I _ => false
  | .b58cEnc _ | .b58cDec | .b58Enc | .b58Dec | .hash256 | .cksum4 | .b32Group | .b32Ungroup | .b32Polymod
  | .b32Cksum _ | .b32Enc _ => true

/-- The largest ILEN with which a command reads its input string (R93, R125, R128, R152, R153, R173, R175, R193,
R195, R210, R215, R220); NOP and MOV.O2I read none (R235, R236). -/
def inputBound : Instr → Nat
  | .b58Enc => 93
  | .b58cEnc _ | .b32Group => 80
  | .b58cDec | .b58Dec | .hash256 | .cksum4 | .b32Ungroup | .b32Polymod | .b32Cksum _ | .b32Enc _ => 128
  | .nop | .movO2I _ => 0

/-- The states agree on ILEN and, unless ILEN is above the bound, on the input bytes below it: "no command reads
any of these when its length check has failed" (R39). -/
def SameInput (bound : Nat) (s s' : State) : Prop :=
  s.ilen = s'.ilen ∧
  (s.ilen.toNat ≤ bound → ∀ k, k < s.ilen.toNat → readByte s (0x100 + k) = readByte s' (0x100 + k))

/-- The states agree on HLEN and, if it is 1..83, on the prefix bytes below it (R39, R208). -/
def SamePrefix (s s' : State) : Prop :=
  s.hlen = s'.hlen ∧
  (1 ≤ s.hlen.toNat → s.hlen.toNat ≤ 83 → ∀ k, k < s.hlen.toNat → readByte s (0x080 + k) = readByte s' (0x080 + k))

/-- The states agree on the sampled TPLCHK and, if it is 1, on the template table (R33, R231). -/
def SameTemplates (s s' : State) : Prop :=
  sampledTplchk s = sampledTplchk s' ∧ (sampledTplchk s = true → s.tpl = s'.tpl)

/-- The states agree on OLEN and, if MOV.O2I's length test passes, on the output bytes below it (R39, R236). -/
def SameOutput (off : Byte) (s s' : State) : Prop :=
  s.olen = s'.olen ∧
  (off.toNat + s.olen.toNat ≤ 128 → ∀ k, k < s.olen.toNat → readByte s (0x180 + k) = readByte s' (0x180 + k))

/-- The states agree on the operands that the rule of ONE command names; all else may differ (R9, R39, R93, R231). -/
def SameNamedOperands (i : Instr) (s s' : State) : Prop :=
  match i with
  | .nop => True
  | .b58cEnc _ | .b58Enc | .b58Dec | .hash256 | .cksum4 | .b32Group | .b32Ungroup => SameInput (inputBound i) s s'
  | .b58cDec => SameInput (inputBound i) s s' ∧ SameTemplates s s'
  | .b32Polymod | .b32Cksum _ | .b32Enc _ => SameInput (inputBound i) s s' ∧ SamePrefix s s'
  | .movO2I off => SameOutput off s s'

/-- An event that resets the block: `rst_n` falls, or a write of CTRL with bit 31 set (R280, R283). -/
def resets : Event → Bool
  | .rstN level => !level
  | .write off .word v => off == 0x004 && v.getLsbD 31
  | .write _ .byte _ | .read _ _ | .clk _ => false

/-- The pair of offset and size selects no place of the window: an unmapped offset, a wrong width or a
misaligned word (R61, R63, R64; R262 (a), (b)). -/
def noPlace (off : Offset) : Size → Prop
  | .word => off.toNat % 4 ≠ 0 ∨ (0x028 ≤ off.toNat ∧ off.toNat < 0x040) ∨ 0x080 ≤ off.toNat
  | .byte => off.toNat < 0x080 ∨ (0x0D3 ≤ off.toNat ∧ off.toNat < 0x100)

/-- A read was refused (R67, R262): HFAULT is set, the port answers `error` with some data, and nothing else
changes but the model's count of refused reads. -/
def RefusedRead (s t : State) : Prop :=
  t.hfault = true ∧ (∃ d, t.resp = some (.readError d)) ∧
  { t with hfault := s.hfault, resp := s.resp, portDraw := s.portDraw } = s

/-- A write was refused (R67, R262): HFAULT is set, the port answers `error`, and nothing else changes. -/
def RefusedWrite (s t : State) : Prop :=
  t.hfault = true ∧ t.resp = some .writeError ∧ { t with hfault := s.hfault, resp := s.resp } = s

/-- A read was accepted: the port answers with the data, and nothing else changes (R65). -/
def AcceptedRead (s t : State) (d : Word) : Prop :=
  t.resp = some (.readOk d) ∧ { t with resp := s.resp } = s

/-- A 4-byte read at an offset, made next, is accepted and returns the value `n` (R65). -/
def ReadsAs (s : State) (off : Offset) (n : Nat) : Prop :=
  ∃ t d, step { s with pending := [.read off .word] } = .next t ∧ AcceptedRead { s with pending := [] } t d ∧
    d.toNat = n

/-- A write, made next, is accepted and leaves the state `t`, with the answer `ok` (R66). -/
def WritesTo (s : State) (off : Offset) (size : Size) (v : Word) (t : State) : Prop :=
  step { s with pending := [.write off size v] } = .next { t with pending := [], resp := some .writeOk }

/-- A safe state for host software: no access has been refused since reset (R262). -/
def hostSafe (s : State) : Prop := s.hfault = false

/-- The memory is in its canonical form. -/
def MemInv (s : State) : Prop := Memory.wf s.mem

/-- OLEN is at most 128, and exactly the bytes of OBUF below OLEN hold defined values (R31, R38). -/
def ObufInv (s : State) : Prop :=
  s.olen.toNat ≤ 128 ∧ ∀ i, i < 128 → ((Memory.get s.mem (0x180 + i)).isSome ↔ i < s.olen.toNat)

/-- The command lifecycle: while a command runs CMD is its word and neither DONE nor FAIL is set; DONE means
FAIL = (ERR ≠ 0); FAIL means ERR ≠ 0 (R21, R26, R27). -/
def LifecycleInv (s : State) : Prop :=
  (∀ w t, s.phase = .run w t → s.cmd = w ∧ s.done = false ∧ s.fail = false) ∧
  (s.done = true → s.fail = decide (s.err ≠ .ok)) ∧ (s.fail = true → s.err ≠ .ok)

/-- Every register has its reset value and no buffer byte is defined (R42): only the pins and the model's own
fields may differ from `State.reset`. -/
def RegistersReset (s : State) : Prop :=
  { s with
    rstN := true, inReset := false, pending := [], resp := none, inDraw := 0, outDraw := 0, portDraw := 0 } =
    State.reset

/-- While `rst_n` is low the block is in reset, and in reset every register holds its reset value (R280). -/
def ResetInv (s : State) : Prop := (s.rstN = false → s.inReset = true) ∧ (s.inReset = true → RegistersReset s)

/-- RES0.PAYLEN is 0..123, and TPLIDX is 0 without a hit (R32). -/
def Res0Inv (s : State) : Prop := s.res0.payLen.toNat ≤ 123 ∧ (s.res0.tplHit = false → s.res0.tplIdx = 0)

end Sys2Proof.Machine
end

