-- ==== Sys2Proof/Certificates/Slice0/Obligations.lean ====
section
/-! DEFINITION. The statements for the provers. Each docstring names what the statement rests on; OBLIGATIONS.json
holds the same in words. A statement about a free value holds for every value of it. -/

open Sys2Proof Sys2Proof.Machine

/-- Decoding the word of any well-formed command gives that command back. Rests on 30_encoding.md section 3
(R95, R96), 30_encoding.md section 5 (R101). -/
def Obligations.DecodeOfEncode : Prop :=
  ∀ i : Instr, i.wf = true → decodeWord (encode i) = .command i

/-- A word that decodes to a command is that command's word. Rests on 30_encoding.md section 3 (R95, R96),
30_encoding.md section 5 (R101). -/
def Obligations.EncodeOfDecode : Prop :=
  ∀ (w : Word) (i : Instr), decodeWord w = .command i → encode i = w

/-- A word decodes to a row's command exactly when w AND mask = match; the rows are disjoint. Rests on R92. -/
def Obligations.DecodeFollowsOpcodeMap : Prop :=
  (∀ (w : Word) (r : Row), r ∈ rows →
    (w &&& r.format.mask = BitVec.ofNat 32 r.op ↔ ∃ i, decodeWord w = .command i ∧ i.mnemonic = r.mnemonic)) ∧
  (∀ (w : Word) (r r' : Row), r ∈ rows → r' ∈ rows → r.selects w = true → r'.selects w = true → r = r') ∧
  (Format.z.mask = 0xFFFFFFFF ∧ Format.a8.mask = 0xFFFF00FF ∧ Format.a1.mask = 0xFFFFFEFF)

/-- The words that decode to ILLEGAL are exactly those R98 lists. Rests on 30_encoding.md section 3 (R96),
30_encoding.md section 4 (R98). -/
def Obligations.IllegalWordsExactly : Prop :=
  ∀ w : Word, (∃ r, decodeWord w = .illegal r) ↔
    (w.toNat / 65536 ≠ 0 ∨ w.toNat / 16 % 16 ≠ 0 ∨ 0xD ≤ w.toNat % 16 ∨
      (w.toNat % 16 ∈ [0x0, 0x2, 0x3, 0x4, 0x5, 0x6, 0x7, 0x8, 0x9] ∧ w.toNat / 256 % 256 ≠ 0) ∨
      (w.toNat % 16 ∈ [0xA, 0xB] ∧ w.toNat / 512 % 128 ≠ 0))

/-- Words written out from the spec's encodings decode to the commands they stand for. Rests on
95_test_vectors.md section 2.6, 30_encoding.md section 3 (R95, R96). -/
def Obligations.SampleWordsDecode : Prop :=
  decodeWord 0x00000000 = .command .nop ∧ decodeWord 0x00007A01 = .command (.b58cEnc 122) ∧
  decodeWord 0x0000FF01 = .command (.b58cEnc 255) ∧ decodeWord 0x00000002 = .command .b58cDec ∧
  decodeWord 0x00000102 = .illegal .argNonZero ∧ decodeWord 0x0000010A = .command (.b32Cksum .bech32m) ∧
  decodeWord 0x0000020A = .illegal .argHighNonZero ∧ decodeWord 0x0000030B = .illegal .argHighNonZero ∧
  decodeWord 0x0000800C = .command (.movO2I 128) ∧ decodeWord 0x0000000D = .illegal .reservedOp ∧
  decodeWord 0x00000013 = .illegal .z0NonZero ∧ decodeWord 0x00010003 = .illegal .z1NonZero ∧
  decodeWord 0xFFFFFFFF = .illegal .z1NonZero

/-- The assembler takes exactly a command's operation code and numeric argument, and gives its word. Rests on
30_encoding.md section 5 (R101). -/
def Obligations.AssemblerMatchesEncoder : Prop :=
  (∀ i : Instr, assemble i.asm = some (encode i)) ∧
  (∀ c : AsmCommand, (assemble c).isSome = true ↔ ∃ i : Instr, i.asm = c)

/-- A step that completes a running command is exec of the command its word decodes to. Rests on 45_control.md
section 1 (R232), notes/assumptions/1.md and 2.md (the model's schedule). -/
def Obligations.StepRunsDecodedCommand : Prop :=
  ∀ (s : State) (w : Word) (tc : Bool) (i : Instr), s.phase = .run w tc → decodeWord w = .command i →
    (s.pending = [] → step s = exec i s) ∧
    (∀ rest, s.pending = .clk true :: rest → s.inReset = false → step s = exec i { s with pending := rest }) ∧
    (∀ rest, s.pending = .clk false :: rest → s.inReset = false → step s = .next { s with pending := rest })

/-- A write to CMD starts a command when idle and is refused while BUSY. Rests on R230. -/
def Obligations.CmdWriteStartsCommand : Prop :=
  ∀ (s : State) (w : Word) (rest : List Event), s.inReset = false → s.pending = .write 0x008 .word w :: rest →
    (s.phase = .idle → step s = .next { s with
      pending := rest, cmd := w, phase := .run w s.tplchk, done := false, fail := false, resp := some .writeOk }) ∧
    (∀ w' tc, s.phase = .run w' tc → step s = .next { s with
      pending := rest, hfault := true, resp := some .writeError })

/-- An illegal word written to CMD starts, and completes with E_ILLEGAL_CMD. Rests on R238. -/
def Obligations.IllegalWordResult : Prop :=
  (∀ (s : State) (w : Word) (r : IllegalReason) (rest : List Event), s.inReset = false → s.phase = .idle →
    decodeWord w = .illegal r → s.pending = .write 0x008 .word w :: .clk true :: rest →
    ∃ s1 t, step s = .next s1 ∧ busy s1 = true ∧ InputsKept { s with
        cmd := w, pending := .clk true :: rest, resp := some .writeOk } s1 ∧
      step s1 = .next t ∧ Failed { s1 with pending := rest } t .illegalCmd noRes0) ∧
  (∃ r, decodeWord 0x0000000D = .illegal r) ∧ (∃ r, decodeWord 0x00000102 = .illegal r)

/-- Every command, in every state, completes: BUSY falls, DONE rises, FAIL = (ERR is not OK). Rests on
45_control.md section 1 (R232), 60_exceptions.md section 1 (R250). -/
def Obligations.EveryCommandCompletes : Prop :=
  ∀ (i : Instr) (s : State), ∃ t, exec i s = .next t ∧ Completed t t.err ∧ ControlKept s t

/-- Which command can end with which error code. Rests on R252. -/
def Obligations.CommandErrorCodes : Prop :=
  (∀ (i : Instr) (s t : State), exec i s = .next t →
    t.err ∈ possibleErrors i ∧ (t.err = .b58Prefix → sampledTplchk s = true)) ∧
  (∀ s : State, (completeIllegal s).err = .illegalCmd)

/-- NOP writes ERR = OK and the completion bits, and nothing else. Rests on R235. -/
def Obligations.NopResult : Prop :=
  decodeWord 0x00000000 = .command .nop ∧
  ∀ s : State, exec .nop s = .next { s with err := .ok, fail := false, done := true, phase := .idle }

/-- MOV.O2I off copies the output string into IBUF at OFF, or fails E_LEN and writes nothing. Rests on R236. -/
def Obligations.MovO2IResult : Prop :=
  (∀ off : Byte, decodeWord (0x0000000C + (off.setWidth 32 <<< 8)) = .command (.movO2I off)) ∧
  ∀ (off : Byte) (s : State),
    (off.toNat + s.olen.toNat ≤ 128 → ∃ t, exec (.movO2I off) s = .next t ∧ Completed t .ok ∧ ControlKept s t ∧
      t.ilen.toNat = off.toNat + s.olen.toNat ∧ t.olen = s.olen ∧ t.res0 = s.res0 ∧ t.resid = s.resid ∧
      (∀ i, i < s.olen.toNat → readByte t (0x100 + off.toNat + i) = readByte s (0x180 + i)) ∧
      (∀ a, ¬ (0x100 + off.toNat ≤ a ∧ a < 0x100 + off.toNat + s.olen.toNat) → readByte t a = readByte s a)) ∧
    (128 < off.toNat + s.olen.toNat → exec (.movO2I off) s = .next { s with
      err := .len, fail := true, done := true, phase := .idle })

/-- B58.ENC: result, E_LEN, and frame. Rests on R125. -/
def Obligations.B58EncResult : Prop :=
  decodeWord 0x00000003 = .command .b58Enc ∧
  ∀ s : State,
    (s.ilen.toNat ≤ 93 → ∃ t, exec .b58Enc s = .next t ∧ Succeeded s t (b58enc (inputString s)) noRes0 0) ∧
    (93 < s.ilen.toNat → ∃ t, exec .b58Enc s = .next t ∧ Failed s t .len noRes0)

/-- B58.DEC: result, E_LEN, E_B58_ALPHABET, and frame. Rests on R128. -/
def Obligations.B58DecResult : Prop :=
  decodeWord 0x00000004 = .command .b58Dec ∧
  ∀ s : State,
    (128 < s.ilen.toNat → ∃ t, exec .b58Dec s = .next t ∧ Failed s t .len noRes0) ∧
    (s.ilen.toNat ≤ 128 → (∃ c ∈ inputString s, v58 c = none) →
      ∃ t, exec .b58Dec s = .next t ∧ Failed s t .b58Alphabet noRes0) ∧
    (s.ilen.toNat ≤ 128 → (∀ c ∈ inputString s, v58 c ≠ none) →
      ∃ t b, b58dec (inputString s) = some b ∧ exec .b58Dec s = .next t ∧ Succeeded s t b noRes0 0)

/-- HASH256: result, E_LEN, and frame. Rests on R152. -/
def Obligations.Hash256Result : Prop :=
  decodeWord 0x00000005 = .command .hash256 ∧
  ∀ s : State,
    (s.ilen.toNat ≤ 128 → ∃ t, exec .hash256 s = .next t ∧ t.olen = 32 ∧
      Succeeded s t (h256 (inputString s)) noRes0 0) ∧
    (128 < s.ilen.toNat → ∃ t, exec .hash256 s = .next t ∧ Failed s t .len noRes0)

/-- CKSUM4: result, E_LEN, and frame; the first four bytes of HASH256's digest. Rests on R153. -/
def Obligations.Cksum4Result : Prop :=
  decodeWord 0x00000006 = .command .cksum4 ∧
  ∀ s : State,
    (s.ilen.toNat ≤ 128 → ∃ t, exec .cksum4 s = .next t ∧ t.olen = 4 ∧
      Succeeded s t ((h256 (inputString s)).take 4) noRes0 0) ∧
    (128 < s.ilen.toNat → ∃ t, exec .cksum4 s = .next t ∧ Failed s t .len noRes0)

/-- B58C.ENC ver: result, E_LEN, and frame. Rests on R173. -/
def Obligations.B58cEncResult : Prop :=
  (∀ ver : Byte, decodeWord (0x00000001 + (ver.setWidth 32 <<< 8)) = .command (.b58cEnc ver)) ∧
  ∀ (ver : Byte) (s : State),
    (s.ilen.toNat ≤ 80 → ∃ t, exec (.b58cEnc ver) s = .next t ∧ t.olen.toNat ≤ 117 ∧
      Succeeded s t (b58enc (ver :: inputString s ++ (h256 (ver :: inputString s)).take 4)) noRes0 0) ∧
    (80 < s.ilen.toNat → ∃ t, exec (.b58cEnc ver) s = .next t ∧ Failed s t .len noRes0)

/-- B58C.DEC: every outcome of the pseudocode, with RES0 and the engine's TPLCHK, and frame. Rests on R175,
R177. While a command runs sampledTplchk is the engine's copy (second clause); no step evaluates a command
on an idle state (log entry 8). -/
def Obligations.B58cDecResult : Prop :=
  decodeWord 0x00000002 = .command .b58cDec ∧
  (∀ (s : State) (w : Word) (tc : Bool), s.phase = .run w tc → sampledTplchk s = tc) ∧
  ∀ s : State,
    (128 < s.ilen.toNat → ∃ t, exec .b58cDec s = .next t ∧ Failed s t .len noRes0) ∧
    (s.ilen.toNat ≤ 128 →
      (∀ (ver : Byte) (p : List Byte), b58dec (inputString s) ≠ some (ver :: p ++ (h256 (ver :: p)).take 4)) →
      ∃ t, exec .b58cDec s = .next t ∧ Failed s t .b58CkLen noRes0) ∧
    (∀ (ver : Byte) (p : List Byte), s.ilen.toNat ≤ 128 →
      b58dec (inputString s) = some (ver :: p ++ (h256 (ver :: p)).take 4) →
      (sampledTplchk s = false → ∃ t, exec .b58cDec s = .next t ∧
        Succeeded s t p ⟨ver, BitVec.ofNat 8 p.length, 0, false⟩ 0) ∧
      (sampledTplchk s = true → (∀ i : Fin 16, ¬ ((s.tpl.get i).valid = true ∧ (s.tpl.get i).version = ver)) →
        ∃ t, exec .b58cDec s = .next t ∧ Failed s t .b58Prefix ⟨ver, BitVec.ofNat 8 p.length, 0, false⟩) ∧
      (sampledTplchk s = true → (∃ i : Fin 16, (s.tpl.get i).valid = true ∧ (s.tpl.get i).version = ver) →
        (∀ i : Fin 16, (s.tpl.get i).valid = true → (s.tpl.get i).version = ver →
          (s.tpl.get i).payLen.toNat ≠ p.length) →
        ∃ t, exec .b58cDec s = .next t ∧ Failed s t .b58CkLen noRes0) ∧
      (∀ i : Fin 16, sampledTplchk s = true → (s.tpl.get i).valid = true → (s.tpl.get i).version = ver →
        (s.tpl.get i).payLen.toNat = p.length →
        (∀ j : Fin 16, j < i → ¬ ((s.tpl.get j).valid = true ∧ (s.tpl.get j).version = ver ∧
          (s.tpl.get j).payLen.toNat = p.length)) →
        ∃ t, exec .b58cDec s = .next t ∧
          Succeeded s t p ⟨ver, BitVec.ofNat 8 p.length, BitVec.ofNat 4 i.val, true⟩ 0))

/-- B32.GROUP: result, E_LEN, and frame. Rests on R193. -/
def Obligations.B32GroupResult : Prop :=
  decodeWord 0x00000007 = .command .b32Group ∧
  ∀ s : State,
    (s.ilen.toNat ≤ 80 → ∃ t, exec .b32Group s = .next t ∧ t.olen.toNat = (8 * s.ilen.toNat + 4) / 5 ∧
      Succeeded s t ((group (inputString s)).map fun x => x.setWidth 8) noRes0 0) ∧
    (80 < s.ilen.toNat → ∃ t, exec .b32Group s = .next t ∧ Failed s t .len noRes0)

/-- B32.UNGROUP: result, E_LEN, E_VALUE, E_B32_FORMAT in this order, and frame. Rests on R195. -/
def Obligations.B32UngroupResult : Prop :=
  decodeWord 0x00000008 = .command .b32Ungroup ∧
  ∀ s : State,
    (128 < s.ilen.toNat → ∃ t, exec .b32Ungroup s = .next t ∧ Failed s t .len noRes0) ∧
    (s.ilen.toNat ≤ 128 → (∃ b ∈ inputString s, 31 < b.toNat) →
      ∃ t, exec .b32Ungroup s = .next t ∧ Failed s t .value noRes0) ∧
    (s.ilen.toNat ≤ 128 → (∀ b ∈ inputString s, b.toNat ≤ 31) →
      (ungroup ((inputString s).map fun b => b.setWidth 5) = none →
        ∃ t, exec .b32Ungroup s = .next t ∧ Failed s t .b32Format noRes0) ∧
      (∀ b, ungroup ((inputString s).map fun b => b.setWidth 5) = some b →
        ∃ t, exec .b32Ungroup s = .next t ∧ t.olen.toNat = 5 * s.ilen.toNat / 8 ∧ Succeeded s t b noRes0 0))

/-- B32.POLYMOD: residue, errors in order, and frame. Rests on R210, R208. -/
def Obligations.B32PolymodResult : Prop :=
  decodeWord 0x00000009 = .command .b32Polymod ∧
  ∀ s : State,
    (128 < s.ilen.toNat → ∃ t, exec .b32Polymod s = .next t ∧ Failed s t .len noRes0) ∧
    (s.ilen.toNat ≤ 128 → ¬ (1 ≤ s.hlen.toNat ∧ s.hlen.toNat ≤ 83) →
      ∃ t, exec .b32Polymod s = .next t ∧ Failed s t .hrp noRes0) ∧
    (s.ilen.toNat ≤ 128 → 1 ≤ s.hlen.toNat → s.hlen.toNat ≤ 83 →
      (∃ c ∈ prefixString s, ¬ (33 ≤ c.toNat ∧ c.toNat ≤ 126 ∧ ¬ (0x41 ≤ c.toNat ∧ c.toNat ≤ 0x5A))) →
      ∃ t, exec .b32Polymod s = .next t ∧ Failed s t .hrp noRes0) ∧
    (s.ilen.toNat ≤ 128 → 1 ≤ s.hlen.toNat → s.hlen.toNat ≤ 83 →
      (∀ c ∈ prefixString s, 33 ≤ c.toNat ∧ c.toNat ≤ 126 ∧ ¬ (0x41 ≤ c.toNat ∧ c.toNat ≤ 0x5A)) →
      (∃ b ∈ inputString s, 31 < b.toNat) →
      ∃ t, exec .b32Polymod s = .next t ∧ Failed s t .value noRes0) ∧
    (s.ilen.toNat ≤ 128 → 1 ≤ s.hlen.toNat → s.hlen.toNat ≤ 83 →
      (∀ c ∈ prefixString s, 33 ≤ c.toNat ∧ c.toNat ≤ 126 ∧ ¬ (0x41 ≤ c.toNat ∧ c.toNat ≤ 0x5A)) →
      (∀ b ∈ inputString s, b.toNat ≤ 31) →
      ∃ t, exec .b32Polymod s = .next t ∧ t.olen = 0 ∧
        Succeeded s t [] noRes0 (polymod (hrpExpand (prefixString s) ++ ((inputString s).map fun b => (b.setWidth 5 : Symbol)))))

/-- B32.CKSUM var: the six symbols and RESID, errors in order, and frame. Rests on R215, R208. -/
def Obligations.B32CksumResult : Prop :=
  decodeWord 0x0000000A = .command (.b32Cksum .bech32) ∧ decodeWord 0x0000010A = .command (.b32Cksum .bech32m) ∧
  ∀ (var : Variant) (s : State),
    (128 < s.ilen.toNat → ∃ t, exec (.b32Cksum var) s = .next t ∧ Failed s t .len noRes0) ∧
    (s.ilen.toNat ≤ 128 → ¬ (1 ≤ s.hlen.toNat ∧ s.hlen.toNat ≤ 83) →
      ∃ t, exec (.b32Cksum var) s = .next t ∧ Failed s t .hrp noRes0) ∧
    (s.ilen.toNat ≤ 128 → 1 ≤ s.hlen.toNat → s.hlen.toNat ≤ 83 →
      (∃ c ∈ prefixString s, ¬ (33 ≤ c.toNat ∧ c.toNat ≤ 126 ∧ ¬ (0x41 ≤ c.toNat ∧ c.toNat ≤ 0x5A))) →
      ∃ t, exec (.b32Cksum var) s = .next t ∧ Failed s t .hrp noRes0) ∧
    (s.ilen.toNat ≤ 128 → 1 ≤ s.hlen.toNat → s.hlen.toNat ≤ 83 →
      (∀ c ∈ prefixString s, 33 ≤ c.toNat ∧ c.toNat ≤ 126 ∧ ¬ (0x41 ≤ c.toNat ∧ c.toNat ≤ 0x5A)) →
      (∃ b ∈ inputString s, 31 < b.toNat) →
      ∃ t, exec (.b32Cksum var) s = .next t ∧ Failed s t .value noRes0) ∧
    (s.ilen.toNat ≤ 128 → 1 ≤ s.hlen.toNat → s.hlen.toNat ≤ 83 →
      (∀ c ∈ prefixString s, 33 ≤ c.toNat ∧ c.toNat ≤ 126 ∧ ¬ (0x41 ≤ c.toNat ∧ c.toNat ≤ 0x5A)) →
      (∀ b ∈ inputString s, b.toNat ≤ 31) →
      ∀ p : Residue, p = polymod (hrpExpand (prefixString s) ++ ((inputString s).map fun b => (b.setWidth 5 : Symbol)) ++ [0, 0, 0, 0, 0, 0]) ^^^
          (if var = .bech32 then 0x00000001 else 0x2BC830A3) →
        ∃ t, exec (.b32Cksum var) s = .next t ∧ t.olen = 6 ∧
          Succeeded s t ([(p >>> 25).setWidth 8 &&& 31, (p >>> 20).setWidth 8 &&& 31, (p >>> 15).setWidth 8 &&& 31,
            (p >>> 10).setWidth 8 &&& 31, (p >>> 5).setWidth 8 &&& 31, p.setWidth 8 &&& 31]) noRes0 p)

/-- B32.ENC var: the packed text and RESID, errors in order, and frame. Rests on R220, R208. -/
def Obligations.B32EncResult : Prop :=
  decodeWord 0x0000000B = .command (.b32Enc .bech32) ∧ decodeWord 0x0000010B = .command (.b32Enc .bech32m) ∧
  ∀ (var : Variant) (s : State),
    (s.ilen.toNat ≤ 128 → 1 ≤ s.hlen.toNat → s.hlen.toNat ≤ 83 → 90 < s.hlen.toNat + 1 + s.ilen.toNat + 6 →
      ∃ t, exec (.b32Enc var) s = .next t ∧ Failed s t .b32TooLong noRes0) ∧
    (128 < s.ilen.toNat → ∃ t, exec (.b32Enc var) s = .next t ∧ Failed s t .len noRes0) ∧
    (s.ilen.toNat ≤ 128 → ¬ (1 ≤ s.hlen.toNat ∧ s.hlen.toNat ≤ 83) →
      ∃ t, exec (.b32Enc var) s = .next t ∧ Failed s t .hrp noRes0) ∧
    (s.ilen.toNat ≤ 128 → 1 ≤ s.hlen.toNat → s.hlen.toNat ≤ 83 → s.hlen.toNat + 1 + s.ilen.toNat + 6 ≤ 90 →
      (∃ c ∈ prefixString s, ¬ (33 ≤ c.toNat ∧ c.toNat ≤ 126 ∧ ¬ (0x41 ≤ c.toNat ∧ c.toNat ≤ 0x5A))) →
      ∃ t, exec (.b32Enc var) s = .next t ∧ Failed s t .hrp noRes0) ∧
    (s.ilen.toNat ≤ 128 → 1 ≤ s.hlen.toNat → s.hlen.toNat ≤ 83 → s.hlen.toNat + 1 + s.ilen.toNat + 6 ≤ 90 →
      (∀ c ∈ prefixString s, 33 ≤ c.toNat ∧ c.toNat ≤ 126 ∧ ¬ (0x41 ≤ c.toNat ∧ c.toNat ≤ 0x5A)) →
      (∃ b ∈ inputString s, 31 < b.toNat) →
      ∃ t, exec (.b32Enc var) s = .next t ∧ Failed s t .value noRes0) ∧
    (s.ilen.toNat ≤ 128 → 1 ≤ s.hlen.toNat → s.hlen.toNat ≤ 83 → s.hlen.toNat + 1 + s.ilen.toNat + 6 ≤ 90 →
      (∀ c ∈ prefixString s, 33 ≤ c.toNat ∧ c.toNat ≤ 126 ∧ ¬ (0x41 ≤ c.toNat ∧ c.toNat ≤ 0x5A)) →
      (∀ b ∈ inputString s, b.toNat ≤ 31) →
      ∀ p : Residue, p = polymod (hrpExpand (prefixString s) ++ ((inputString s).map fun b => (b.setWidth 5 : Symbol)) ++ [0, 0, 0, 0, 0, 0]) ^^^
          (if var = .bech32 then 0x00000001 else 0x2BC830A3) →
        ∃ t, exec (.b32Enc var) s = .next t ∧ t.olen.toNat = s.hlen.toNat + s.ilen.toNat + 7 ∧
          Succeeded s t (prefixString s ++ [(0x31 : Byte)] ++ (((inputString s).map fun b => (b.setWidth 5 : Symbol)).map a32) ++
            [a32 ((p >>> 25).setWidth 5), a32 ((p >>> 20).setWidth 5), a32 ((p >>> 15).setWidth 5),
              a32 ((p >>> 10).setWidth 5), a32 ((p >>> 5).setWidth 5), a32 (p.setWidth 5)]) noRes0 p)

/-- B58ENC and B58DEC keep the number and the count of leading zeros. Rests on 40_base58.md section 2 (R121,
R122). -/
def Obligations.B58TextsDenoteTheirBytes : Prop :=
  (∀ s : List Byte, valueOf58 (b58enc s) = beNat s ∧
    leadingCount (ascii '1') (b58enc s) = leadingCount 0 s ∧ ∀ c ∈ b58enc s, (v58 c).isSome = true) ∧
  (∀ t : List Byte, (b58dec t = none ↔ ∃ c ∈ t, v58 c = none) ∧
    ∀ d, b58dec t = some d → beNat d = valueOf58 t ∧ leadingCount 0 d = leadingCount (ascii '1') t)

/-- B58DEC inverts B58ENC on every byte string. Rests on 40_base58.md section 2 (R123 (a)). -/
def Obligations.B58DecOfB58Enc : Prop :=
  ∀ s : List Byte, b58dec (b58enc s) = some s

/-- Every text over the alphabet is the canonical encoding of exactly one byte string. Rests on 40_base58.md
section 2 (R123 (b)). -/
def Obligations.B58EncOfB58Dec : Prop :=
  (∀ t d : List Byte, b58dec t = some d → b58enc d = t) ∧
  (∀ t t' d : List Byte, b58dec t = some d → b58dec t' = some d → t = t')

/-- Length bounds of the base-58 conversion. Rests on 40_base58.md section 2 (R123 (d), (e)). -/
def Obligations.B58LengthBounds : Prop :=
  (∀ s : List Byte, s.length ≤ 93 → (b58enc s).length ≤ 128) ∧
  (∀ s : List Byte, s.length ≤ 85 → (b58enc s).length ≤ 117) ∧
  (∀ t d : List Byte, b58dec t = some d → d.length ≤ t.length) ∧
  (∀ n : Nat, b58enc (List.replicate n 0) = List.replicate n (ascii '1') ∧
    b58dec (List.replicate n (ascii '1')) = some (List.replicate n 0))

/-- The digit-array algorithm computes the two functions. Rests on 40_base58.md section 2 (R124). -/
def Obligations.B58ArrayForm : Prop :=
  (∀ s : List Byte, b58encArray s = b58enc s) ∧ (∀ t : List Byte, b58decArray t = b58dec t)

/-- The reference digests of R148, R150 and R151. Rests on 41_hash256.md section 1 (R148), 41_hash256.md section
2 (R150, R151). -/
def Obligations.Sha256ReferenceValues : Prop :=
  beNat (sha256 [0x61, 0x62, 0x63]) = 0xba7816bf8f01cfea414140de5dae2223b00361a396177a9cb410ff61f20015ad ∧
  beNat (sha256 []) = 0xe3b0c44298fc1c149afbf4c8996fb92427ae41e4649b934ca495991b7852b855 ∧
  beNat (h256 []) = 0x5df6e0e2761359d30a8275058e299fcc0381534545f55cf43e41983f5d4c9456 ∧
  ck4 [] = [0x5D, 0xF6, 0xE0, 0xE2]

/-- The padded message: the message, 0x80, the fewest zero bytes, the bit length in eight bytes. Rests on
41_hash256.md section 1 (R142). -/
def Obligations.Sha256Padding : Prop :=
  ∀ m : List Byte, ∃ (k : Nat) (len8 : List Byte),
    padMessage m = m ++ [0x80] ++ List.replicate k 0 ++ len8 ∧
    (m.length + 1 + k) % 64 = 56 ∧ (∀ j, (m.length + 1 + j) % 64 = 56 → k ≤ j) ∧
    len8.length = 8 ∧ (m.length < 2 ^ 61 → beNat len8 = 8 * m.length) ∧
    (padMessage m).length = 64 * ((m.length + 8) / 64 + 1)

/-- Regrouping is lossless. Rests on 43_bech32_regroup.md section 1 (R192). -/
def Obligations.UngroupOfGroup : Prop :=
  ∀ b : List Byte, ungroup (group b) = some b ∧ (group b).length = (8 * b.length + 4) / 5

/-- The accumulator form equals the bit-stream definition; some lengths are always bad. Rests on
43_bech32_regroup.md section 1 (R192). -/
def Obligations.RegroupAccumulatorForm : Prop :=
  (∀ b : List Byte, groupByAccumulator b = group b) ∧
  (∀ v : List Symbol, ungroupByAccumulator v = ungroup v) ∧
  (∀ v : List Symbol, v.length % 8 ∈ [1, 3, 6] → ungroup v = none)

/-- The residue of prefix, data and their checksum symbols is the variant constant. Rests on
44_bech32_checksum.md section 2 (R211). -/
def Obligations.ChecksumResidue : Prop :=
  ∀ (var : Variant) (h : List Byte) (d : List Symbol),
    polymod (hrpExpand h ++ d ++ checksumSymbols (checksumValue var h d)) =
      (if var = .bech32 then 0x00000001 else 0x2BC830A3)

/-- The packed text has no upper-case letter, and its last '1' is the separator. Rests on 44_bech32_checksum.md
section 4 (R222 (a), (b)). -/
def Obligations.PackedTextShape : Prop :=
  ∀ (var : Variant) (h : List Byte) (v : List Symbol),
    (∀ c ∈ h, 33 ≤ c.toNat ∧ c.toNat ≤ 126 ∧ ¬ (0x41 ≤ c.toNat ∧ c.toNat ≤ 0x5A)) →
    (∃ d, packText var h v = h ++ [0x31] ++ d ∧ d.length = v.length + 6 ∧ (0x31 : Byte) ∉ d) ∧
    (∀ c ∈ packText var h v, ¬ (0x41 ≤ c.toNat ∧ c.toNat ≤ 0x5A))

/-- B58C.ENC, MOV.O2I 0, B58C.DEC returns the version byte and the payload. Rests on 42_base58check.md section 3
(R182 (e)), notes/assumptions/8.md (TPLCHK as a meaning reads it on an idle state). B58C.DEC is evaluated
here on an idle state, where the TPLCHK it reads is CTRL.TPLCHK as it stands: the model's choice of log
entry 8, not the spec's. -/
def Obligations.Base58CheckRoundTrip : Prop :=
  ∀ (ver : Byte) (s : State), s.ilen.toNat ≤ 80 → s.tplchk = false →
    ∃ s1 s2 t, exec (.b58cEnc ver) s = .next s1 ∧ exec (.movO2I 0) s1 = .next s2 ∧ exec .b58cDec s2 = .next t ∧
      Completed t .ok ∧ t.res0.ver = ver ∧ t.res0.payLen = s.ilen ∧ t.res0.tplHit = false ∧
      ObufHolds t (inputString s)

/-- CKSUM4, MOV.O2I and B58.ENC together give the text of B58C.ENC. Rests on 42_base58check.md section 1 (R170,
R171), 95_test_vectors.md program P6. -/
def Obligations.Base58CheckFromParts : Prop :=
  ∀ (ver : Byte) (s s' : State), s'.ilen.toNat ≤ 80 → inputString s = ver :: inputString s' →
    ∃ s1 s2 t t', exec .cksum4 s = .next s1 ∧ exec (.movO2I s.ilen) s1 = .next s2 ∧ exec .b58Enc s2 = .next t ∧
      exec (.b58cEnc ver) s' = .next t' ∧ t.err = .ok ∧ t'.err = .ok ∧ outputString t = outputString t'

/-- No command changes an input, but for MOV.O2I's write of IBUF and ILEN. Rests on 10_state.md sections 3, 4, 5
(R29, R30, R33, R35, R36), 60_exceptions.md section 1 (R250). -/
def Obligations.CommandsKeepInputs : Prop :=
  ∀ (i : Instr) (s t : State), exec i s = .next t →
    ControlKept s t ∧
    ((∀ off, i ≠ .movO2I off) → t.ilen = s.ilen ∧ ∀ a, ¬ (0x180 ≤ a ∧ a < 0x200) → readByte t a = readByte s a) ∧
    (∀ off, i = .movO2I off → t.olen = s.olen ∧ t.res0 = s.res0 ∧ t.resid = s.resid ∧
      ∀ a, ¬ (0x100 + off.toNat ≤ a ∧ a < 0x100 + off.toNat + s.olen.toNat) → readByte t a = readByte s a) ∧
    (i = .nop → t.olen = s.olen ∧ t.res0 = s.res0 ∧ t.resid = s.resid ∧ ∀ a, readByte t a = readByte s a)

/-- A command's result is a function of the command and the operands its own rule names. Rests on 00_scope.md
section 6 (R9), 10_state.md sections 4, 5 (R33, R39), 45_control.md section 1 (R231). -/
def Obligations.ResultsDependOnNamedInputsOnly : Prop :=
  ∀ (i : Instr) (s s' t t' : State), SameNamedOperands i s s' → exec i s = .next t → exec i s' = .next t' →
    t.err = t'.err ∧ t.fail = t'.fail ∧
    (writesResults i = true → t.olen = t'.olen ∧ t.res0 = t'.res0 ∧ t.resid = t'.resid ∧
      ∀ k, k < t.olen.toNat → readByte t (0x180 + k) = readByte t' (0x180 + k)) ∧
    (∀ off, i = .movO2I off → (s.ilen = s'.ilen → t.ilen = t'.ilen) ∧
      (t.err = .ok → t.ilen = t'.ilen ∧ ∀ k, k < s.olen.toNat →
        readByte t (0x100 + off.toNat + k) = readByte t' (0x100 + off.toNat + k)))

/-- After a command that writes results, or an illegal word, OBUF at or beyond OLEN is a fresh free value. Rests
on 10_state.md section 5 (R38), 45_control.md section 4 (R238), notes/assumptions/5.md (the model's free
values). -/
def Obligations.ObufBeyondOlenIsFree : Prop :=
  (∀ (i : Instr) (s t : State), writesResults i = true → exec i s = .next t →
    t.olen.toNat ≤ 128 ∧ t.outDraw = s.outDraw + 1 ∧
    ∀ k, t.olen.toNat ≤ k → k < 128 → readByte t (0x180 + k) = Config.freeByte (s.outDraw + 1) (0x180 + k)) ∧
  (∀ s : State, (completeIllegal s).olen = 0 ∧ (completeIllegal s).outDraw = s.outDraw + 1 ∧
    ∀ k, k < 128 → readByte (completeIllegal s) (0x180 + k) = Config.freeByte (s.outDraw + 1) (0x180 + k))

/-- An access outside the map, of a wrong width, misaligned, or a write to a read-only place is refused. Rests
on 60_exceptions.md section 6 (R262 (a), (b), (c)), 20_memory.md section 2 (R63, R64, R66, R67). -/
def Obligations.RefusedAccesses : Prop :=
  ∀ (s : State) (off : Offset) (size : Size) (v : Word) (rest : List Event), s.inReset = false →
    (noPlace off size → s.pending = .read off size :: rest →
      ∃ t, step s = .next t ∧ RefusedRead { s with pending := rest } t) ∧
    (noPlace off size → s.pending = .write off size v :: rest →
      ∃ t, step s = .next t ∧ RefusedWrite { s with pending := rest } t) ∧
    (size = .word → off.toNat ∈ [0x000, 0x010, 0x01C, 0x020, 0x024] → s.pending = .write off size v :: rest →
      ∃ t, step s = .next t ∧ RefusedWrite { s with pending := rest } t) ∧
    (size = .byte → 0x180 ≤ off.toNat → s.pending = .write off size v :: rest →
      ∃ t, step s = .next t ∧ RefusedWrite { s with pending := rest } t)

/-- While BUSY only reads of ID, CTRL, CMD, STATUS and writes of CTRL are accepted. Rests on R68. -/
def Obligations.BusyAccesses : Prop :=
  ∀ (s : State) (w : Word) (tc : Bool) (off : Offset) (size : Size) (v : Word) (rest : List Event),
    s.inReset = false → s.phase = .run w tc →
    (s.pending = .read off size :: rest → ∃ t, step s = .next t ∧
      (if size = .word ∧ off = 0x000 then AcceptedRead { s with pending := rest } t 0x42353843
       else if size = .word ∧ off = 0x004 then AcceptedRead { s with pending := rest } t (ctrlWord s)
       else if size = .word ∧ off = 0x008 then AcceptedRead { s with pending := rest } t s.cmd
       else if size = .word ∧ off = 0x00C then AcceptedRead { s with pending := rest } t (statusWord s)
       else RefusedRead { s with pending := rest } t)) ∧
    (s.pending = .write off size v :: rest → ∃ t, step s = .next t ∧
      (if size = .word ∧ off = 0x004 then
        t.resp = some .writeOk ∧ t.hfault = (s.hfault && !v.getLsbD 31) ∧ t.pending = rest
       else RefusedWrite { s with pending := rest } t))

/-- A read changes nothing but the port's answer, unless it is refused; an idle read of a buffer byte is
accepted. Rests on 20_memory.md section 1 (R61), 20_memory.md section 2 (R64, R65), notes/assumptions/13.md
(bits 31:8 of the data of a 1-byte read). That bits 31:8 of the data of a 1-byte read are 0 is the model's
choice of log entry 13, not the spec's. -/
def Obligations.ReadsHaveNoSideEffect : Prop :=
  ∀ (s : State) (off : Offset) (size : Size) (rest : List Event), s.inReset = false →
    s.pending = .read off size :: rest →
    ∃ t, step s = .next t ∧
      ((∃ d, AcceptedRead { s with pending := rest } t d ∧
        (size = .byte → d = (readByte s off.toNat).setWidth 32)) ∨ RefusedRead { s with pending := rest } t) ∧
      (size = .byte → s.phase = .idle →
        (0x080 ≤ off.toNat ∧ off.toNat ≤ 0x0D2 ∨ 0x100 ≤ off.toNat ∧ off.toNat ≤ 0x1FF) →
        AcceptedRead { s with pending := rest } t ((readByte s off.toNat).setWidth 32))

/-- What every register reads as when the block is idle. Rests on 10_state.md sections 2, 3, 4 (R22, R24 to
R33). -/
def Obligations.RegisterReadValues : Prop :=
  ∀ s : State, s.inReset = false → s.phase = .idle →
    ReadsAs s 0x000 0x42353843 ∧ ReadsAs s 0x004 (bitNat s.ie + 2 * bitNat s.tplchk) ∧
    ReadsAs s 0x008 s.cmd.toNat ∧
    ReadsAs s 0x00C (2 * bitNat s.done + 4 * bitNat s.fail + 8 * bitNat s.hfault) ∧
    ReadsAs s 0x010 (errNumber s.err).toNat ∧ ReadsAs s 0x014 s.ilen.toNat ∧ ReadsAs s 0x018 s.hlen.toNat ∧
    ReadsAs s 0x01C s.olen.toNat ∧
    ReadsAs s 0x020 (s.res0.ver.toNat + 256 * s.res0.payLen.toNat + 65536 * s.res0.tplIdx.toNat +
      1048576 * bitNat s.res0.tplHit) ∧
    ReadsAs s 0x024 s.resid.toNat ∧
    ∀ i : Fin 16, ReadsAs s (BitVec.ofNat 9 (0x040 + 4 * i.val))
      ((s.tpl.get i).payLen.toNat + 256 * (s.tpl.get i).version.toNat + 2147483648 * bitNat (s.tpl.get i).valid)

/-- What a write of CTRL, STATUS, ILEN, HLEN and TPL[i] does when the block is idle. Rests on 20_memory.md
section 2 (R66), 10_state.md sections 3, 4 (R25, R27, R29, R30, R33). -/
def Obligations.RegisterWriteEffects : Prop :=
  ∀ (s : State) (v : Word), s.inReset = false → s.phase = .idle →
    (v.getLsbD 31 = false → WritesTo s 0x004 .word v { s with ie := v.getLsbD 0, tplchk := v.getLsbD 1 }) ∧
    WritesTo s 0x00C .word v { s with done := s.done && !v.getLsbD 1 } ∧
    WritesTo s 0x014 .word v { s with ilen := v.extractLsb' 0 8 } ∧
    WritesTo s 0x018 .word v { s with hlen := v.extractLsb' 0 8 } ∧
    ∀ i : Fin 16, WritesTo s (BitVec.ofNat 9 (0x040 + 4 * i.val)) .word v
      { s with tpl := s.tpl.set i.val ⟨v.extractLsb' 0 8, v.extractLsb' 8 8, v.getLsbD 31⟩ i.isLt }

/-- A byte written to HBUF or IBUF reads back, and no other byte or register changes. Rests on 20_memory.md
section 2 (R64, R66), 20_memory.md section 5 (R73), notes/assumptions/13.md (bits 31:8 of the data of a
1-byte read). That bits 31:8 of the data of a 1-byte read are 0 is the model's choice of log entry 13, not
the spec's. -/
def Obligations.BufferWriteThenRead : Prop :=
  ∀ (s : State) (off : Offset) (v : Word), s.inReset = false → s.phase = .idle →
    (0x080 ≤ off.toNat ∧ off.toNat ≤ 0x0D2 ∨ 0x100 ≤ off.toNat ∧ off.toNat ≤ 0x17F) →
    ∃ t u, step { s with pending := [.write off .byte v, .read off .byte] } = .next t ∧
      t.resp = some .writeOk ∧ readByte t off.toNat = v.extractLsb' 0 8 ∧
      (∀ a, a ≠ off.toNat → readByte t a = readByte s a) ∧
      { t with mem := s.mem, resp := s.resp, pending := s.pending } = s ∧
      step t = .next u ∧ u.resp = some (.readOk ((v.extractLsb' 0 8).setWidth 32))

/-- A write of CTRL with bit 31 set is a soft reset, also while a command runs. Rests on 70_reset_and_hazards.md
section 1 (R283), notes/assumptions/4.md and 20.md (the model's free values and their counters). The clauses
on inDraw, outDraw and Config.freeByte say in the model's terms (log entries 4 and 20) that the buffers
become unspecified. -/
def Obligations.SoftReset : Prop :=
  ∀ (s : State) (v : Word) (rest : List Event), s.inReset = false → v.getLsbD 31 = true →
    s.pending = .write 0x004 .word v :: rest →
    ∃ t, step s = .next t ∧ RegistersReset t ∧ t.resp = some .writeOk ∧ t.pending = rest ∧
      t.rstN = s.rstN ∧ t.inReset = false ∧ t.inDraw = s.inDraw + 1 ∧ t.outDraw = s.outDraw + 1 ∧
      (∀ a, 0x180 ≤ a ∧ a < 0x200 → readByte t a = Config.freeByte (s.outDraw + 1) a) ∧
      (∀ a, ¬ (0x180 ≤ a ∧ a < 0x200) → readByte t a = Config.freeByte (s.inDraw + 1) a)

/-- Pulling rst_n low resets the block at once; it leaves reset at an edge that samples rst_n high. Rests on
70_reset_and_hazards.md section 1 (R280), notes/assumptions/9.md and 10.md (the model's events). -/
def Obligations.HardReset : Prop :=
  (∀ (s : State) (rest : List Event), s.pending = .rstN false :: rest →
    ∃ t, step s = .next t ∧ RegistersReset t ∧ t.rstN = false ∧ t.inReset = true ∧ irq t = false ∧
      t.pending = rest) ∧
  (∀ (s : State) (off : Offset) (size : Size) (v : Word) (rest : List Event), s.inReset = true →
    (s.pending = .write off size v :: rest →
      step s = .next { s with pending := rest, resp := some .writeError }) ∧
    (s.pending = .read off size :: rest → ∃ t d, step s = .next t ∧ t.resp = some (.readError d) ∧
      { t with resp := s.resp, portDraw := s.portDraw } = { s with pending := rest })) ∧
  (∀ (s : State) (c : Bool) (rest : List Event), s.inReset = true → s.phase = .idle →
    s.pending = .clk c :: rest → step s = .next { s with pending := rest, inReset := !s.rstN })

/-- Once set, HFAULT is cleared by nothing but a reset. Rests on 10_state.md section 3 (R27), 60_exceptions.md
section 6 (R262). -/
def Obligations.HfaultIsSticky : Prop :=
  ∀ s t : State, s.hfault = true → step s = .next t →
    t.hfault = true ∨ ∃ e rest, s.pending = e :: rest ∧ resets e = true

/-- irq is the level DONE AND IE: what raises and what lowers it. Rests on R256. -/
def Obligations.InterruptLevel : Prop :=
  (∀ s : State, irq s = true ↔ s.done = true ∧ s.ie = true) ∧
  (∀ (i : Instr) (s t : State), exec i s = .next t → irq t = s.ie) ∧
  (∀ s : State, irq (completeIllegal s) = s.ie) ∧
  (∀ (w : Word) (s : State), irq (startCommand w s) = false) ∧
  (∀ (s t : State) (v : Word) (rest : List Event), s.inReset = false → s.phase = .idle → v.getLsbD 1 = true →
    s.pending = .write 0x00C .word v :: rest → step s = .next t → irq t = false) ∧
  (∀ s : State, irq (resetBlock s) = false) ∧
  (∀ (s t : State) (v : Word) (rest : List Event), s.inReset = false → v.getLsbD 31 = false → s.done = true →
    s.pending = .write 0x004 .word v :: rest → step s = .next t → irq t = v.getLsbD 0)

/-- A CTRL write while a command runs does not affect that command. Rests on 10_state.md section 3 (R25),
45_control.md section 1 (R231). -/
def Obligations.CtrlWriteKeepsRunningCommand : Prop :=
  ∀ (s : State) (w : Word) (tc : Bool) (v : Word) (rest : List Event), s.inReset = false → s.phase = .run w tc →
    v.getLsbD 31 = false →
    ∃ s1 u u', step { s with pending := .write 0x004 .word v :: .clk true :: rest } = .next s1 ∧
      s1.tplchk = v.getLsbD 1 ∧ sampledTplchk s1 = tc ∧ step s1 = .next u ∧ step { s with pending := .clk true :: rest } = .next u' ∧
      u.ie = v.getLsbD 0 ∧ u.tplchk = v.getLsbD 1 ∧
      { u with ie := u'.ie, tplchk := u'.tplchk, resp := u'.resp } = u'

/-- An access while a command runs, refused or not, does not alter the command's outcome. Rests on 20_memory.md
section 2 (R67), 60_exceptions.md section 2 (R255). -/
def Obligations.AccessKeepsRunningCommand : Prop :=
  ∀ (s : State) (w : Word) (tc : Bool) (e : Event) (rest : List Event), s.inReset = false → s.phase = .run w tc →
    ((∃ off size, e = .read off size) ∨
      ∃ off size v, e = .write off size v ∧ ¬ (off = 0x004 ∧ size = .word)) →
    ∃ s1 u u', step { s with pending := e :: .clk true :: rest } = .next s1 ∧ step s1 = .next u ∧
      step { s with pending := .clk true :: rest } = .next u' ∧
      { u with hfault := u'.hfault, resp := u'.resp, portDraw := u'.portDraw } = u'

/-- A running command that is not reset completes, whatever else is scheduled. Rests on 70_reset_and_hazards.md
section 4 (R290), 45_control.md section 1 (R232), notes/assumptions/1.md and 2.md (the model's schedule). -/
def Obligations.RunningCommandCompletes : Prop :=
  ∀ (s : State) (w : Word) (tc : Bool), s.inReset = false → s.phase = .run w tc →
    (∀ e ∈ s.pending, resets e = false) →
    ∃ k t, k ≤ s.pending.length + 1 ∧ Host.Core.run core k s = .next t ∧ t.phase = .idle ∧ t.done = true

/-- The state after reset. Rests on R42. -/
def Obligations.ResetState : Prop :=
  State.reset.phase = .idle ∧ State.reset.ie = false ∧ State.reset.tplchk = false ∧ State.reset.cmd = 0 ∧
  State.reset.done = false ∧ State.reset.fail = false ∧ State.reset.hfault = false ∧
  errNumber State.reset.err = 0x00 ∧ State.reset.ilen = 0 ∧ State.reset.hlen = 0 ∧ State.reset.olen = 0 ∧
  State.reset.res0 = ⟨0, 0, 0, false⟩ ∧ State.reset.resid = 0 ∧
  (∀ i : Fin 16, State.reset.tpl.get i = ⟨0, 0, false⟩) ∧ irq State.reset = false ∧ ReadsAs State.reset 0x000 0x42353843 ∧
  State.reset.mem = [] ∧ ∀ s : State, RegistersReset (resetBlock s)

/-- Every invariant holds of the state after reset. Rests on 10_state.md section 8 (R42). -/
def Obligations.InvariantsHoldAtReset : Prop :=
  MemInv State.reset ∧ ObufInv State.reset ∧ LifecycleInv State.reset ∧ ResetInv State.reset ∧
  Res0Inv State.reset ∧ hostSafe State.reset

/-- Every step keeps the memory in its canonical form. Rests on 20_memory.md section 1 (R60, R61),
notes/assumptions/12.md (the model's memory). -/
def Obligations.StepKeepsMemoryCanonical : Prop :=
  ∀ s t : State, step s = .next t → MemInv s → MemInv t

/-- Every step keeps OLEN at most 128 and OBUF defined exactly below OLEN. Rests on 10_state.md sections 3, 5
(R31, R37, R38). -/
def Obligations.StepKeepsObufListed : Prop :=
  ∀ s t : State, step s = .next t → ObufInv s → ObufInv t

/-- Every step keeps the command lifecycle: never DONE while BUSY, FAIL = (ERR is not 0) when DONE. Rests on
10_state.md sections 1, 3 (R21, R26, R27), 45_control.md section 1 (R230, R232). -/
def Obligations.StepKeepsLifecycle : Prop :=
  ∀ s t : State, step s = .next t → LifecycleInv s → LifecycleInv t

/-- While rst_n is low the block is in reset, and in reset every register holds its reset value. Rests on
70_reset_and_hazards.md section 1 (R280). -/
def Obligations.StepKeepsReset : Prop :=
  ∀ s t : State, step s = .next t → ResetInv s → ResetInv t

/-- Every step keeps RES0.PAYLEN at most 123, and TPLIDX 0 without a hit. Rests on 10_state.md section 3 (R32). -/
def Obligations.StepKeepsRes0 : Prop :=
  ∀ s t : State, step s = .next t → Res0Inv s → Res0Inv t
end

