-- ==== Sys2Proof/Laws/Decode.lean ====
section
/-! SUPPORT. Small laws of the encoding: every instruction is well formed, and its mnemonic and operation code
are those of its row. -/

namespace Sys2Proof

/-- The operand types are exact: every instruction passes the assembler's checks (R101). -/
theorem instr_wf (i : Instr) : i.wf = true := by
  have key : ∀ v : Byte, v.toNat < 256 := fun v => v.isLt
  cases i with
  | b58cEnc ver =>
    simpa [Instr.wf, Instr.asm, AsmCommand.wf, AsmCommand.opKnown, AsmCommand.argPresence, AsmCommand.argInRange,
      formatOf, rows, Instr.op, Instr.argNat, Format.argBound] using key ver
  | movO2I off =>
    simpa [Instr.wf, Instr.asm, AsmCommand.wf, AsmCommand.opKnown, AsmCommand.argPresence, AsmCommand.argInRange,
      formatOf, rows, Instr.op, Instr.argNat, Format.argBound] using key off
  | b32Cksum var => cases var <;> rfl
  | b32Enc var => cases var <;> rfl
  | _ => rfl

/-- The opcode map has a row with each command's operation code and mnemonic (R95). -/
theorem instr_row (i : Instr) : ∃ r ∈ rows, r.op = i.op ∧ r.mnemonic = i.mnemonic := by
  cases i <;> simp [rows, Instr.op, Instr.mnemonic]

/-- A word of a table row is the number itself when it fits 32 bits. -/
theorem tableWord_of_lt {w : Nat} (h : w < 2 ^ 32) : tableWord 32 w = BitVec.ofNat 32 w := by
  rw [tableWord, Nat.mod_eq_of_lt h]

end Sys2Proof
end

