-- ==== Sys2Proof/Laws/State.lean ====
section
/-! SUPPORT. What each named update does to each field of State: one lemma per field per update, so that no
proof unfolds a record update. -/

namespace Sys2Proof.Machine

/-! ### `writeByte`: one buffer byte is written -/

@[simp] theorem writeByte_ie (a : Nat) (b : Byte) (s : State) : (writeByte a b s).ie = s.ie := rfl
@[simp] theorem writeByte_tplchk (a : Nat) (b : Byte) (s : State) : (writeByte a b s).tplchk = s.tplchk := rfl
@[simp] theorem writeByte_cmd (a : Nat) (b : Byte) (s : State) : (writeByte a b s).cmd = s.cmd := rfl
@[simp] theorem writeByte_phase (a : Nat) (b : Byte) (s : State) : (writeByte a b s).phase = s.phase := rfl
@[simp] theorem writeByte_done (a : Nat) (b : Byte) (s : State) : (writeByte a b s).done = s.done := rfl
@[simp] theorem writeByte_fail (a : Nat) (b : Byte) (s : State) : (writeByte a b s).fail = s.fail := rfl
@[simp] theorem writeByte_hfault (a : Nat) (b : Byte) (s : State) : (writeByte a b s).hfault = s.hfault := rfl
@[simp] theorem writeByte_err (a : Nat) (b : Byte) (s : State) : (writeByte a b s).err = s.err := rfl
@[simp] theorem writeByte_ilen (a : Nat) (b : Byte) (s : State) : (writeByte a b s).ilen = s.ilen := rfl
@[simp] theorem writeByte_hlen (a : Nat) (b : Byte) (s : State) : (writeByte a b s).hlen = s.hlen := rfl
@[simp] theorem writeByte_olen (a : Nat) (b : Byte) (s : State) : (writeByte a b s).olen = s.olen := rfl
@[simp] theorem writeByte_res0 (a : Nat) (b : Byte) (s : State) : (writeByte a b s).res0 = s.res0 := rfl
@[simp] theorem writeByte_resid (a : Nat) (b : Byte) (s : State) : (writeByte a b s).resid = s.resid := rfl
@[simp] theorem writeByte_tpl (a : Nat) (b : Byte) (s : State) : (writeByte a b s).tpl = s.tpl := rfl
@[simp] theorem writeByte_mem (a : Nat) (b : Byte) (s : State) : (writeByte a b s).mem = Memory.set s.mem a b := rfl
@[simp] theorem writeByte_rstN (a : Nat) (b : Byte) (s : State) : (writeByte a b s).rstN = s.rstN := rfl
@[simp] theorem writeByte_inReset (a : Nat) (b : Byte) (s : State) : (writeByte a b s).inReset = s.inReset := rfl
@[simp] theorem writeByte_pending (a : Nat) (b : Byte) (s : State) : (writeByte a b s).pending = s.pending := rfl
@[simp] theorem writeByte_resp (a : Nat) (b : Byte) (s : State) : (writeByte a b s).resp = s.resp := rfl
@[simp] theorem writeByte_inDraw (a : Nat) (b : Byte) (s : State) : (writeByte a b s).inDraw = s.inDraw := rfl
@[simp] theorem writeByte_outDraw (a : Nat) (b : Byte) (s : State) : (writeByte a b s).outDraw = s.outDraw := rfl
@[simp] theorem writeByte_portDraw (a : Nat) (b : Byte) (s : State) : (writeByte a b s).portDraw = s.portDraw := rfl

/-! ### `writeBytes`: a string of buffer bytes is written -/

@[simp] theorem writeBytes_ie (a : Nat) (bs : List Byte) (s : State) : (writeBytes a bs s).ie = s.ie := rfl
@[simp] theorem writeBytes_tplchk (a : Nat) (bs : List Byte) (s : State) : (writeBytes a bs s).tplchk = s.tplchk := rfl
@[simp] theorem writeBytes_cmd (a : Nat) (bs : List Byte) (s : State) : (writeBytes a bs s).cmd = s.cmd := rfl
@[simp] theorem writeBytes_phase (a : Nat) (bs : List Byte) (s : State) : (writeBytes a bs s).phase = s.phase := rfl
@[simp] theorem writeBytes_done (a : Nat) (bs : List Byte) (s : State) : (writeBytes a bs s).done = s.done := rfl
@[simp] theorem writeBytes_fail (a : Nat) (bs : List Byte) (s : State) : (writeBytes a bs s).fail = s.fail := rfl
@[simp] theorem writeBytes_hfault (a : Nat) (bs : List Byte) (s : State) : (writeBytes a bs s).hfault = s.hfault := rfl
@[simp] theorem writeBytes_err (a : Nat) (bs : List Byte) (s : State) : (writeBytes a bs s).err = s.err := rfl
@[simp] theorem writeBytes_ilen (a : Nat) (bs : List Byte) (s : State) : (writeBytes a bs s).ilen = s.ilen := rfl
@[simp] theorem writeBytes_hlen (a : Nat) (bs : List Byte) (s : State) : (writeBytes a bs s).hlen = s.hlen := rfl
@[simp] theorem writeBytes_olen (a : Nat) (bs : List Byte) (s : State) : (writeBytes a bs s).olen = s.olen := rfl
@[simp] theorem writeBytes_res0 (a : Nat) (bs : List Byte) (s : State) : (writeBytes a bs s).res0 = s.res0 := rfl
@[simp] theorem writeBytes_resid (a : Nat) (bs : List Byte) (s : State) : (writeBytes a bs s).resid = s.resid := rfl
@[simp] theorem writeBytes_tpl (a : Nat) (bs : List Byte) (s : State) : (writeBytes a bs s).tpl = s.tpl := rfl
@[simp] theorem writeBytes_mem (a : Nat) (bs : List Byte) (s : State) : (writeBytes a bs s).mem = Memory.store s.mem a bs := rfl
@[simp] theorem writeBytes_rstN (a : Nat) (bs : List Byte) (s : State) : (writeBytes a bs s).rstN = s.rstN := rfl
@[simp] theorem writeBytes_inReset (a : Nat) (bs : List Byte) (s : State) : (writeBytes a bs s).inReset = s.inReset := rfl
@[simp] theorem writeBytes_pending (a : Nat) (bs : List Byte) (s : State) : (writeBytes a bs s).pending = s.pending := rfl
@[simp] theorem writeBytes_resp (a : Nat) (bs : List Byte) (s : State) : (writeBytes a bs s).resp = s.resp := rfl
@[simp] theorem writeBytes_inDraw (a : Nat) (bs : List Byte) (s : State) : (writeBytes a bs s).inDraw = s.inDraw := rfl
@[simp] theorem writeBytes_outDraw (a : Nat) (bs : List Byte) (s : State) : (writeBytes a bs s).outDraw = s.outDraw := rfl
@[simp] theorem writeBytes_portDraw (a : Nat) (bs : List Byte) (s : State) : (writeBytes a bs s).portDraw = s.portDraw := rfl

/-! ### `out`: `out` (R8) -/

@[simp] theorem out_ie (bs : List Byte) (s : State) : (out bs s).ie = s.ie := rfl
@[simp] theorem out_tplchk (bs : List Byte) (s : State) : (out bs s).tplchk = s.tplchk := rfl
@[simp] theorem out_cmd (bs : List Byte) (s : State) : (out bs s).cmd = s.cmd := rfl
@[simp] theorem out_phase (bs : List Byte) (s : State) : (out bs s).phase = s.phase := rfl
@[simp] theorem out_done (bs : List Byte) (s : State) : (out bs s).done = s.done := rfl
@[simp] theorem out_fail (bs : List Byte) (s : State) : (out bs s).fail = s.fail := rfl
@[simp] theorem out_hfault (bs : List Byte) (s : State) : (out bs s).hfault = s.hfault := rfl
@[simp] theorem out_err (bs : List Byte) (s : State) : (out bs s).err = s.err := rfl
@[simp] theorem out_ilen (bs : List Byte) (s : State) : (out bs s).ilen = s.ilen := rfl
@[simp] theorem out_hlen (bs : List Byte) (s : State) : (out bs s).hlen = s.hlen := rfl
@[simp] theorem out_olen (bs : List Byte) (s : State) : (out bs s).olen = BitVec.ofNat 8 bs.length := rfl
@[simp] theorem out_res0 (bs : List Byte) (s : State) : (out bs s).res0 = s.res0 := rfl
@[simp] theorem out_resid (bs : List Byte) (s : State) : (out bs s).resid = s.resid := rfl
@[simp] theorem out_tpl (bs : List Byte) (s : State) : (out bs s).tpl = s.tpl := rfl
@[simp] theorem out_mem (bs : List Byte) (s : State) : (out bs s).mem = Memory.store (Memory.clearObuf s.mem) obufBase bs := rfl
@[simp] theorem out_rstN (bs : List Byte) (s : State) : (out bs s).rstN = s.rstN := rfl
@[simp] theorem out_inReset (bs : List Byte) (s : State) : (out bs s).inReset = s.inReset := rfl
@[simp] theorem out_pending (bs : List Byte) (s : State) : (out bs s).pending = s.pending := rfl
@[simp] theorem out_resp (bs : List Byte) (s : State) : (out bs s).resp = s.resp := rfl
@[simp] theorem out_inDraw (bs : List Byte) (s : State) : (out bs s).inDraw = s.inDraw := rfl
@[simp] theorem out_outDraw (bs : List Byte) (s : State) : (out bs s).outDraw = s.outDraw + 1 := rfl
@[simp] theorem out_portDraw (bs : List Byte) (s : State) : (out bs s).portDraw = s.portDraw := rfl

/-! ### `complete`: completion (R232) -/

@[simp] theorem complete_ie (e : ErrCode) (s : State) : (complete e s).ie = s.ie := rfl
@[simp] theorem complete_tplchk (e : ErrCode) (s : State) : (complete e s).tplchk = s.tplchk := rfl
@[simp] theorem complete_cmd (e : ErrCode) (s : State) : (complete e s).cmd = s.cmd := rfl
@[simp] theorem complete_phase (e : ErrCode) (s : State) : (complete e s).phase = .idle := rfl
@[simp] theorem complete_done (e : ErrCode) (s : State) : (complete e s).done = true := rfl
@[simp] theorem complete_fail (e : ErrCode) (s : State) : (complete e s).fail = failFlag e := rfl
@[simp] theorem complete_hfault (e : ErrCode) (s : State) : (complete e s).hfault = s.hfault := rfl
@[simp] theorem complete_err (e : ErrCode) (s : State) : (complete e s).err = e := rfl
@[simp] theorem complete_ilen (e : ErrCode) (s : State) : (complete e s).ilen = s.ilen := rfl
@[simp] theorem complete_hlen (e : ErrCode) (s : State) : (complete e s).hlen = s.hlen := rfl
@[simp] theorem complete_olen (e : ErrCode) (s : State) : (complete e s).olen = s.olen := rfl
@[simp] theorem complete_res0 (e : ErrCode) (s : State) : (complete e s).res0 = s.res0 := rfl
@[simp] theorem complete_resid (e : ErrCode) (s : State) : (complete e s).resid = s.resid := rfl
@[simp] theorem complete_tpl (e : ErrCode) (s : State) : (complete e s).tpl = s.tpl := rfl
@[simp] theorem complete_mem (e : ErrCode) (s : State) : (complete e s).mem = s.mem := rfl
@[simp] theorem complete_rstN (e : ErrCode) (s : State) : (complete e s).rstN = s.rstN := rfl
@[simp] theorem complete_inReset (e : ErrCode) (s : State) : (complete e s).inReset = s.inReset := rfl
@[simp] theorem complete_pending (e : ErrCode) (s : State) : (complete e s).pending = s.pending := rfl
@[simp] theorem complete_resp (e : ErrCode) (s : State) : (complete e s).resp = s.resp := rfl
@[simp] theorem complete_inDraw (e : ErrCode) (s : State) : (complete e s).inDraw = s.inDraw := rfl
@[simp] theorem complete_outDraw (e : ErrCode) (s : State) : (complete e s).outDraw = s.outDraw := rfl
@[simp] theorem complete_portDraw (e : ErrCode) (s : State) : (complete e s).portDraw = s.portDraw := rfl

/-! ### `succeed`: a successful completion -/

@[simp] theorem succeed_ie (bs : List Byte) (r0 : Res0) (rid : Residue) (s : State) : (succeed bs r0 rid s).ie = s.ie := rfl
@[simp] theorem succeed_tplchk (bs : List Byte) (r0 : Res0) (rid : Residue) (s : State) : (succeed bs r0 rid s).tplchk = s.tplchk := rfl
@[simp] theorem succeed_cmd (bs : List Byte) (r0 : Res0) (rid : Residue) (s : State) : (succeed bs r0 rid s).cmd = s.cmd := rfl
@[simp] theorem succeed_phase (bs : List Byte) (r0 : Res0) (rid : Residue) (s : State) : (succeed bs r0 rid s).phase = .idle := rfl
@[simp] theorem succeed_done (bs : List Byte) (r0 : Res0) (rid : Residue) (s : State) : (succeed bs r0 rid s).done = true := rfl
@[simp] theorem succeed_fail (bs : List Byte) (r0 : Res0) (rid : Residue) (s : State) : (succeed bs r0 rid s).fail = false := rfl
@[simp] theorem succeed_hfault (bs : List Byte) (r0 : Res0) (rid : Residue) (s : State) : (succeed bs r0 rid s).hfault = s.hfault := rfl
@[simp] theorem succeed_err (bs : List Byte) (r0 : Res0) (rid : Residue) (s : State) : (succeed bs r0 rid s).err = .ok := rfl
@[simp] theorem succeed_ilen (bs : List Byte) (r0 : Res0) (rid : Residue) (s : State) : (succeed bs r0 rid s).ilen = s.ilen := rfl
@[simp] theorem succeed_hlen (bs : List Byte) (r0 : Res0) (rid : Residue) (s : State) : (succeed bs r0 rid s).hlen = s.hlen := rfl
@[simp] theorem succeed_olen (bs : List Byte) (r0 : Res0) (rid : Residue) (s : State) : (succeed bs r0 rid s).olen = BitVec.ofNat 8 bs.length := rfl
@[simp] theorem succeed_res0 (bs : List Byte) (r0 : Res0) (rid : Residue) (s : State) : (succeed bs r0 rid s).res0 = r0 := rfl
@[simp] theorem succeed_resid (bs : List Byte) (r0 : Res0) (rid : Residue) (s : State) : (succeed bs r0 rid s).resid = rid := rfl
@[simp] theorem succeed_tpl (bs : List Byte) (r0 : Res0) (rid : Residue) (s : State) : (succeed bs r0 rid s).tpl = s.tpl := rfl
@[simp] theorem succeed_mem (bs : List Byte) (r0 : Res0) (rid : Residue) (s : State) : (succeed bs r0 rid s).mem = Memory.store (Memory.clearObuf s.mem) obufBase bs := rfl
@[simp] theorem succeed_rstN (bs : List Byte) (r0 : Res0) (rid : Residue) (s : State) : (succeed bs r0 rid s).rstN = s.rstN := rfl
@[simp] theorem succeed_inReset (bs : List Byte) (r0 : Res0) (rid : Residue) (s : State) : (succeed bs r0 rid s).inReset = s.inReset := rfl
@[simp] theorem succeed_pending (bs : List Byte) (r0 : Res0) (rid : Residue) (s : State) : (succeed bs r0 rid s).pending = s.pending := rfl
@[simp] theorem succeed_resp (bs : List Byte) (r0 : Res0) (rid : Residue) (s : State) : (succeed bs r0 rid s).resp = s.resp := rfl
@[simp] theorem succeed_inDraw (bs : List Byte) (r0 : Res0) (rid : Residue) (s : State) : (succeed bs r0 rid s).inDraw = s.inDraw := rfl
@[simp] theorem succeed_outDraw (bs : List Byte) (r0 : Res0) (rid : Residue) (s : State) : (succeed bs r0 rid s).outDraw = s.outDraw + 1 := rfl
@[simp] theorem succeed_portDraw (bs : List Byte) (r0 : Res0) (rid : Residue) (s : State) : (succeed bs r0 rid s).portDraw = s.portDraw := rfl

/-! ### `failKeeping`: a failing completion (R250) -/

@[simp] theorem failKeeping_ie (e : ErrCode) (r0 : Res0) (s : State) : (failKeeping e r0 s).ie = s.ie := rfl
@[simp] theorem failKeeping_tplchk (e : ErrCode) (r0 : Res0) (s : State) : (failKeeping e r0 s).tplchk = s.tplchk := rfl
@[simp] theorem failKeeping_cmd (e : ErrCode) (r0 : Res0) (s : State) : (failKeeping e r0 s).cmd = s.cmd := rfl
@[simp] theorem failKeeping_phase (e : ErrCode) (r0 : Res0) (s : State) : (failKeeping e r0 s).phase = .idle := rfl
@[simp] theorem failKeeping_done (e : ErrCode) (r0 : Res0) (s : State) : (failKeeping e r0 s).done = true := rfl
@[simp] theorem failKeeping_fail (e : ErrCode) (r0 : Res0) (s : State) : (failKeeping e r0 s).fail = failFlag e := rfl
@[simp] theorem failKeeping_hfault (e : ErrCode) (r0 : Res0) (s : State) : (failKeeping e r0 s).hfault = s.hfault := rfl
@[simp] theorem failKeeping_err (e : ErrCode) (r0 : Res0) (s : State) : (failKeeping e r0 s).err = e := rfl
@[simp] theorem failKeeping_ilen (e : ErrCode) (r0 : Res0) (s : State) : (failKeeping e r0 s).ilen = s.ilen := rfl
@[simp] theorem failKeeping_hlen (e : ErrCode) (r0 : Res0) (s : State) : (failKeeping e r0 s).hlen = s.hlen := rfl
@[simp] theorem failKeeping_olen (e : ErrCode) (r0 : Res0) (s : State) : (failKeeping e r0 s).olen = 0 := rfl
@[simp] theorem failKeeping_res0 (e : ErrCode) (r0 : Res0) (s : State) : (failKeeping e r0 s).res0 = r0 := rfl
@[simp] theorem failKeeping_resid (e : ErrCode) (r0 : Res0) (s : State) : (failKeeping e r0 s).resid = 0 := rfl
@[simp] theorem failKeeping_tpl (e : ErrCode) (r0 : Res0) (s : State) : (failKeeping e r0 s).tpl = s.tpl := rfl
@[simp] theorem failKeeping_mem (e : ErrCode) (r0 : Res0) (s : State) : (failKeeping e r0 s).mem = Memory.clearObuf s.mem := rfl
@[simp] theorem failKeeping_rstN (e : ErrCode) (r0 : Res0) (s : State) : (failKeeping e r0 s).rstN = s.rstN := rfl
@[simp] theorem failKeeping_inReset (e : ErrCode) (r0 : Res0) (s : State) : (failKeeping e r0 s).inReset = s.inReset := rfl
@[simp] theorem failKeeping_pending (e : ErrCode) (r0 : Res0) (s : State) : (failKeeping e r0 s).pending = s.pending := rfl
@[simp] theorem failKeeping_resp (e : ErrCode) (r0 : Res0) (s : State) : (failKeeping e r0 s).resp = s.resp := rfl
@[simp] theorem failKeeping_inDraw (e : ErrCode) (r0 : Res0) (s : State) : (failKeeping e r0 s).inDraw = s.inDraw := rfl
@[simp] theorem failKeeping_outDraw (e : ErrCode) (r0 : Res0) (s : State) : (failKeeping e r0 s).outDraw = s.outDraw + 1 := rfl
@[simp] theorem failKeeping_portDraw (e : ErrCode) (r0 : Res0) (s : State) : (failKeeping e r0 s).portDraw = s.portDraw := rfl

/-! ### `failWith`: `fail <CODE>` (R250) -/

@[simp] theorem failWith_ie (e : ErrCode) (s : State) : (failWith e s).ie = s.ie := rfl
@[simp] theorem failWith_tplchk (e : ErrCode) (s : State) : (failWith e s).tplchk = s.tplchk := rfl
@[simp] theorem failWith_cmd (e : ErrCode) (s : State) : (failWith e s).cmd = s.cmd := rfl
@[simp] theorem failWith_phase (e : ErrCode) (s : State) : (failWith e s).phase = .idle := rfl
@[simp] theorem failWith_done (e : ErrCode) (s : State) : (failWith e s).done = true := rfl
@[simp] theorem failWith_fail (e : ErrCode) (s : State) : (failWith e s).fail = failFlag e := rfl
@[simp] theorem failWith_hfault (e : ErrCode) (s : State) : (failWith e s).hfault = s.hfault := rfl
@[simp] theorem failWith_err (e : ErrCode) (s : State) : (failWith e s).err = e := rfl
@[simp] theorem failWith_ilen (e : ErrCode) (s : State) : (failWith e s).ilen = s.ilen := rfl
@[simp] theorem failWith_hlen (e : ErrCode) (s : State) : (failWith e s).hlen = s.hlen := rfl
@[simp] theorem failWith_olen (e : ErrCode) (s : State) : (failWith e s).olen = 0 := rfl
@[simp] theorem failWith_res0 (e : ErrCode) (s : State) : (failWith e s).res0 = noRes0 := rfl
@[simp] theorem failWith_resid (e : ErrCode) (s : State) : (failWith e s).resid = 0 := rfl
@[simp] theorem failWith_tpl (e : ErrCode) (s : State) : (failWith e s).tpl = s.tpl := rfl
@[simp] theorem failWith_mem (e : ErrCode) (s : State) : (failWith e s).mem = Memory.clearObuf s.mem := rfl
@[simp] theorem failWith_rstN (e : ErrCode) (s : State) : (failWith e s).rstN = s.rstN := rfl
@[simp] theorem failWith_inReset (e : ErrCode) (s : State) : (failWith e s).inReset = s.inReset := rfl
@[simp] theorem failWith_pending (e : ErrCode) (s : State) : (failWith e s).pending = s.pending := rfl
@[simp] theorem failWith_resp (e : ErrCode) (s : State) : (failWith e s).resp = s.resp := rfl
@[simp] theorem failWith_inDraw (e : ErrCode) (s : State) : (failWith e s).inDraw = s.inDraw := rfl
@[simp] theorem failWith_outDraw (e : ErrCode) (s : State) : (failWith e s).outDraw = s.outDraw + 1 := rfl
@[simp] theorem failWith_portDraw (e : ErrCode) (s : State) : (failWith e s).portDraw = s.portDraw := rfl

/-! ### `startCommand`: command start (R230) -/

@[simp] theorem startCommand_ie (w : Word) (s : State) : (startCommand w s).ie = s.ie := rfl
@[simp] theorem startCommand_tplchk (w : Word) (s : State) : (startCommand w s).tplchk = s.tplchk := rfl
@[simp] theorem startCommand_cmd (w : Word) (s : State) : (startCommand w s).cmd = w := rfl
@[simp] theorem startCommand_phase (w : Word) (s : State) : (startCommand w s).phase = .run w s.tplchk := rfl
@[simp] theorem startCommand_done (w : Word) (s : State) : (startCommand w s).done = false := rfl
@[simp] theorem startCommand_fail (w : Word) (s : State) : (startCommand w s).fail = false := rfl
@[simp] theorem startCommand_hfault (w : Word) (s : State) : (startCommand w s).hfault = s.hfault := rfl
@[simp] theorem startCommand_err (w : Word) (s : State) : (startCommand w s).err = s.err := rfl
@[simp] theorem startCommand_ilen (w : Word) (s : State) : (startCommand w s).ilen = s.ilen := rfl
@[simp] theorem startCommand_hlen (w : Word) (s : State) : (startCommand w s).hlen = s.hlen := rfl
@[simp] theorem startCommand_olen (w : Word) (s : State) : (startCommand w s).olen = s.olen := rfl
@[simp] theorem startCommand_res0 (w : Word) (s : State) : (startCommand w s).res0 = s.res0 := rfl
@[simp] theorem startCommand_resid (w : Word) (s : State) : (startCommand w s).resid = s.resid := rfl
@[simp] theorem startCommand_tpl (w : Word) (s : State) : (startCommand w s).tpl = s.tpl := rfl
@[simp] theorem startCommand_mem (w : Word) (s : State) : (startCommand w s).mem = s.mem := rfl
@[simp] theorem startCommand_rstN (w : Word) (s : State) : (startCommand w s).rstN = s.rstN := rfl
@[simp] theorem startCommand_inReset (w : Word) (s : State) : (startCommand w s).inReset = s.inReset := rfl
@[simp] theorem startCommand_pending (w : Word) (s : State) : (startCommand w s).pending = s.pending := rfl
@[simp] theorem startCommand_resp (w : Word) (s : State) : (startCommand w s).resp = s.resp := rfl
@[simp] theorem startCommand_inDraw (w : Word) (s : State) : (startCommand w s).inDraw = s.inDraw := rfl
@[simp] theorem startCommand_outDraw (w : Word) (s : State) : (startCommand w s).outDraw = s.outDraw := rfl
@[simp] theorem startCommand_portDraw (w : Word) (s : State) : (startCommand w s).portDraw = s.portDraw := rfl

/-! ### `refuseRead`: a refused read (R67) -/

@[simp] theorem refuseRead_ie (s : State) : (refuseRead s).ie = s.ie := rfl
@[simp] theorem refuseRead_tplchk (s : State) : (refuseRead s).tplchk = s.tplchk := rfl
@[simp] theorem refuseRead_cmd (s : State) : (refuseRead s).cmd = s.cmd := rfl
@[simp] theorem refuseRead_phase (s : State) : (refuseRead s).phase = s.phase := rfl
@[simp] theorem refuseRead_done (s : State) : (refuseRead s).done = s.done := rfl
@[simp] theorem refuseRead_fail (s : State) : (refuseRead s).fail = s.fail := rfl
@[simp] theorem refuseRead_hfault (s : State) : (refuseRead s).hfault = true := rfl
@[simp] theorem refuseRead_err (s : State) : (refuseRead s).err = s.err := rfl
@[simp] theorem refuseRead_ilen (s : State) : (refuseRead s).ilen = s.ilen := rfl
@[simp] theorem refuseRead_hlen (s : State) : (refuseRead s).hlen = s.hlen := rfl
@[simp] theorem refuseRead_olen (s : State) : (refuseRead s).olen = s.olen := rfl
@[simp] theorem refuseRead_res0 (s : State) : (refuseRead s).res0 = s.res0 := rfl
@[simp] theorem refuseRead_resid (s : State) : (refuseRead s).resid = s.resid := rfl
@[simp] theorem refuseRead_tpl (s : State) : (refuseRead s).tpl = s.tpl := rfl
@[simp] theorem refuseRead_mem (s : State) : (refuseRead s).mem = s.mem := rfl
@[simp] theorem refuseRead_rstN (s : State) : (refuseRead s).rstN = s.rstN := rfl
@[simp] theorem refuseRead_inReset (s : State) : (refuseRead s).inReset = s.inReset := rfl
@[simp] theorem refuseRead_pending (s : State) : (refuseRead s).pending = s.pending := rfl
@[simp] theorem refuseRead_resp (s : State) : (refuseRead s).resp = some (.readError (Config.freeWord s.portDraw)) := rfl
@[simp] theorem refuseRead_inDraw (s : State) : (refuseRead s).inDraw = s.inDraw := rfl
@[simp] theorem refuseRead_outDraw (s : State) : (refuseRead s).outDraw = s.outDraw := rfl
@[simp] theorem refuseRead_portDraw (s : State) : (refuseRead s).portDraw = s.portDraw + 1 := rfl

/-! ### `refuseWrite`: a refused write (R67) -/

@[simp] theorem refuseWrite_ie (s : State) : (refuseWrite s).ie = s.ie := rfl
@[simp] theorem refuseWrite_tplchk (s : State) : (refuseWrite s).tplchk = s.tplchk := rfl
@[simp] theorem refuseWrite_cmd (s : State) : (refuseWrite s).cmd = s.cmd := rfl
@[simp] theorem refuseWrite_phase (s : State) : (refuseWrite s).phase = s.phase := rfl
@[simp] theorem refuseWrite_done (s : State) : (refuseWrite s).done = s.done := rfl
@[simp] theorem refuseWrite_fail (s : State) : (refuseWrite s).fail = s.fail := rfl
@[simp] theorem refuseWrite_hfault (s : State) : (refuseWrite s).hfault = true := rfl
@[simp] theorem refuseWrite_err (s : State) : (refuseWrite s).err = s.err := rfl
@[simp] theorem refuseWrite_ilen (s : State) : (refuseWrite s).ilen = s.ilen := rfl
@[simp] theorem refuseWrite_hlen (s : State) : (refuseWrite s).hlen = s.hlen := rfl
@[simp] theorem refuseWrite_olen (s : State) : (refuseWrite s).olen = s.olen := rfl
@[simp] theorem refuseWrite_res0 (s : State) : (refuseWrite s).res0 = s.res0 := rfl
@[simp] theorem refuseWrite_resid (s : State) : (refuseWrite s).resid = s.resid := rfl
@[simp] theorem refuseWrite_tpl (s : State) : (refuseWrite s).tpl = s.tpl := rfl
@[simp] theorem refuseWrite_mem (s : State) : (refuseWrite s).mem = s.mem := rfl
@[simp] theorem refuseWrite_rstN (s : State) : (refuseWrite s).rstN = s.rstN := rfl
@[simp] theorem refuseWrite_inReset (s : State) : (refuseWrite s).inReset = s.inReset := rfl
@[simp] theorem refuseWrite_pending (s : State) : (refuseWrite s).pending = s.pending := rfl
@[simp] theorem refuseWrite_resp (s : State) : (refuseWrite s).resp = some .writeError := rfl
@[simp] theorem refuseWrite_inDraw (s : State) : (refuseWrite s).inDraw = s.inDraw := rfl
@[simp] theorem refuseWrite_outDraw (s : State) : (refuseWrite s).outDraw = s.outDraw := rfl
@[simp] theorem refuseWrite_portDraw (s : State) : (refuseWrite s).portDraw = s.portDraw := rfl

/-! ### `resetBlock`: reset (R42) -/

@[simp] theorem resetBlock_ie (s : State) : (resetBlock s).ie = State.reset.ie := rfl
@[simp] theorem resetBlock_tplchk (s : State) : (resetBlock s).tplchk = State.reset.tplchk := rfl
@[simp] theorem resetBlock_cmd (s : State) : (resetBlock s).cmd = State.reset.cmd := rfl
@[simp] theorem resetBlock_phase (s : State) : (resetBlock s).phase = State.reset.phase := rfl
@[simp] theorem resetBlock_done (s : State) : (resetBlock s).done = State.reset.done := rfl
@[simp] theorem resetBlock_fail (s : State) : (resetBlock s).fail = State.reset.fail := rfl
@[simp] theorem resetBlock_hfault (s : State) : (resetBlock s).hfault = State.reset.hfault := rfl
@[simp] theorem resetBlock_err (s : State) : (resetBlock s).err = State.reset.err := rfl
@[simp] theorem resetBlock_ilen (s : State) : (resetBlock s).ilen = State.reset.ilen := rfl
@[simp] theorem resetBlock_hlen (s : State) : (resetBlock s).hlen = State.reset.hlen := rfl
@[simp] theorem resetBlock_olen (s : State) : (resetBlock s).olen = State.reset.olen := rfl
@[simp] theorem resetBlock_res0 (s : State) : (resetBlock s).res0 = State.reset.res0 := rfl
@[simp] theorem resetBlock_resid (s : State) : (resetBlock s).resid = State.reset.resid := rfl
@[simp] theorem resetBlock_tpl (s : State) : (resetBlock s).tpl = State.reset.tpl := rfl
@[simp] theorem resetBlock_mem (s : State) : (resetBlock s).mem = State.reset.mem := rfl
@[simp] theorem resetBlock_rstN (s : State) : (resetBlock s).rstN = s.rstN := rfl
@[simp] theorem resetBlock_inReset (s : State) : (resetBlock s).inReset = s.inReset := rfl
@[simp] theorem resetBlock_pending (s : State) : (resetBlock s).pending = s.pending := rfl
@[simp] theorem resetBlock_resp (s : State) : (resetBlock s).resp = s.resp := rfl
@[simp] theorem resetBlock_inDraw (s : State) : (resetBlock s).inDraw = s.inDraw + 1 := rfl
@[simp] theorem resetBlock_outDraw (s : State) : (resetBlock s).outDraw = s.outDraw + 1 := rfl
@[simp] theorem resetBlock_portDraw (s : State) : (resetBlock s).portDraw = s.portDraw := rfl

/-! ### The value after reset (R42) -/


@[simp] theorem reset_ie : State.reset.ie = false := rfl
@[simp] theorem reset_tplchk : State.reset.tplchk = false := rfl
@[simp] theorem reset_cmd : State.reset.cmd = 0 := rfl
@[simp] theorem reset_phase : State.reset.phase = .idle := rfl
@[simp] theorem reset_done : State.reset.done = false := rfl
@[simp] theorem reset_fail : State.reset.fail = false := rfl
@[simp] theorem reset_hfault : State.reset.hfault = false := rfl
@[simp] theorem reset_err : State.reset.err = .ok := rfl
@[simp] theorem reset_ilen : State.reset.ilen = 0 := rfl
@[simp] theorem reset_hlen : State.reset.hlen = 0 := rfl
@[simp] theorem reset_olen : State.reset.olen = 0 := rfl
@[simp] theorem reset_res0 : State.reset.res0 = noRes0 := rfl
@[simp] theorem reset_resid : State.reset.resid = 0 := rfl
@[simp] theorem reset_tpl : State.reset.tpl = Vector.replicate 16 ⟨0, 0, false⟩ := rfl
@[simp] theorem reset_mem : State.reset.mem = [] := rfl
@[simp] theorem reset_rstN : State.reset.rstN = true := rfl
@[simp] theorem reset_inReset : State.reset.inReset = false := rfl
@[simp] theorem reset_pending : State.reset.pending = [] := rfl
@[simp] theorem reset_resp : State.reset.resp = none := rfl
@[simp] theorem reset_inDraw : State.reset.inDraw = 0 := rfl
@[simp] theorem reset_outDraw : State.reset.outDraw = 0 := rfl
@[simp] theorem reset_portDraw : State.reset.portDraw = 0 := rfl

end Sys2Proof.Machine
end

