-- ==== Sys2Proof/Laws/Memory.lean ====
section
/-! SUPPORT. The laws of the buffer memory: read after write, a write leaves every other byte alone, and
every operation keeps the canonical form. -/

namespace Sys2Proof.Machine

theorem isObuf_iff (a : Nat) : isObuf a = true ↔ 0x180 ≤ a ∧ a < 0x200 := by
  simp [isObuf, obufBase, Config.obufSize]

theorem isIbuf_iff (a : Nat) : isIbuf a = true ↔ 0x100 ≤ a ∧ a < 0x180 := by
  simp [isIbuf, ibufBase, Config.ibufSize]

theorem isHbuf_iff (a : Nat) : isHbuf a = true ↔ 0x080 ≤ a ∧ a < 0x0D3 := by
  simp [isHbuf, hbufBase, Config.hbufSize]

theorem isBuffer_iff (a : Nat) : isBuffer a = true ↔ (0x080 ≤ a ∧ a < 0x0D3) ∨ (0x100 ≤ a ∧ a < 0x200) := by
  simp only [isBuffer, Bool.or_eq_true, isHbuf_iff, isIbuf_iff, isObuf_iff]
  omega

/-! ### Reading -/

@[simp] theorem get_nil (a : Nat) : Memory.get [] a = none := rfl

theorem get_cons (k : Nat) (c : Byte) (m : Memory) (a : Nat) :
    Memory.get ((k, c) :: m) a = if k = a then some c else Memory.get m a := rfl

theorem get_set (m : Memory) (a : Nat) (b : Byte) (x : Nat) :
    Memory.get (Memory.set m a b) x = if x = a then some b else Memory.get m x := by
  induction m with
  | nil => simp [Memory.set, get_cons, eq_comm]
  | cons cell m ih =>
    obtain ⟨k, c⟩ := cell
    simp only [Memory.set]
    split
    · simp only [get_cons]; grind
    · split
      · simp only [get_cons]; grind
      · simp only [get_cons, ih]; grind

@[simp] theorem get_set_same (m : Memory) (a : Nat) (b : Byte) : Memory.get (Memory.set m a b) a = some b := by
  simp [get_set]

theorem get_set_other (m : Memory) {a x : Nat} (b : Byte) (h : x ≠ a) :
    Memory.get (Memory.set m a b) x = Memory.get m x := by
  simp [get_set, h]

theorem get_store (bs : List Byte) (m : Memory) (a x : Nat) :
    Memory.get (Memory.store m a bs) x =
      if h : a ≤ x ∧ x < a + bs.length then some (bs[x - a]'(by omega)) else Memory.get m x := by
  induction bs generalizing m a with
  | nil => simp [Memory.store]
  | cons b bs ih =>
    rw [Memory.store, ih, get_set]
    by_cases hx : x = a
    · subst hx
      simp
    · by_cases hin : a + 1 ≤ x ∧ x < a + 1 + bs.length
      · have hin' : a ≤ x ∧ x < a + (b :: bs).length := by simp only [List.length_cons]; omega
        rw [dif_pos hin, dif_pos hin']
        have : x - a = (x - (a + 1)) + 1 := by omega
        simp [this]
      · have hin' : ¬ (a ≤ x ∧ x < a + (b :: bs).length) := by simp only [List.length_cons]; omega
        rw [dif_neg hin, dif_neg hin', if_neg hx]

theorem get_store_inside (m : Memory) (a : Nat) (bs : List Byte) (i : Nat) (h : i < bs.length) :
    Memory.get (Memory.store m a bs) (a + i) = some bs[i] := by
  rw [get_store, dif_pos (by omega)]
  simp

theorem get_store_outside (m : Memory) (a : Nat) (bs : List Byte) (x : Nat)
    (h : x < a ∨ a + bs.length ≤ x) : Memory.get (Memory.store m a bs) x = Memory.get m x := by
  rw [get_store, dif_neg (by omega)]

theorem get_clearObuf (m : Memory) (a : Nat) :
    Memory.get (Memory.clearObuf m) a = if isObuf a then none else Memory.get m a := by
  induction m with
  | nil => simp [Memory.clearObuf]
  | cons cell m ih =>
    obtain ⟨k, c⟩ := cell
    simp only [Memory.clearObuf] at ih ⊢
    by_cases hk : isObuf k = true
    · rw [List.filter_cons_of_neg (by simp [hk]), ih, get_cons]
      by_cases hka : k = a
      · subst hka; simp [hk]
      · simp [hka]
    · rw [List.filter_cons_of_pos (by simp [hk]), get_cons, get_cons, ih]
      by_cases hka : k = a
      · subst hka; simp [hk]
      · simp [hka]

/-! ### The canonical form -/

theorem mem_set {m : Memory} {a : Nat} {b : Byte} {c : Host.Cell} (h : c ∈ Memory.set m a b) :
    c = (a, b) ∨ c ∈ m := by
  induction m with
  | nil => simpa [Memory.set] using h
  | cons cell m ih =>
    obtain ⟨k, d⟩ := cell
    simp only [Memory.set] at h
    split at h
    · simpa using h
    · split at h
      · rcases List.mem_cons.1 h with h | h
        · exact .inl h
        · exact .inr (List.mem_cons_of_mem _ h)
      · rcases List.mem_cons.1 h with h | h
        · exact .inr (by simp [h])
        · rcases ih h with h | h
          · exact .inl h
          · exact .inr (List.mem_cons_of_mem _ h)

theorem sorted_set {m : Memory} (a : Nat) (b : Byte) (h : m.Pairwise fun c d => c.1 < d.1) :
    (Memory.set m a b).Pairwise fun c d => c.1 < d.1 := by
  induction m with
  | nil => simp [Memory.set]
  | cons cell m ih =>
    obtain ⟨k, d⟩ := cell
    obtain ⟨hk, hm⟩ := List.pairwise_cons.1 h
    simp only [Memory.set]
    split
    · refine List.pairwise_cons.2 ⟨fun c hc => ?_, h⟩
      rcases List.mem_cons.1 hc with rfl | hc
      · assumption
      · exact Nat.lt_trans ‹_› (hk c hc)
    · split
      · subst_vars
        exact List.pairwise_cons.2 ⟨hk, hm⟩
      · refine List.pairwise_cons.2 ⟨fun c hc => ?_, ih hm⟩
        rcases mem_set hc with rfl | hc
        · show k < a
          omega
        · exact hk c hc

theorem wf_nil : Memory.wf [] := by simp [Memory.wf]

theorem wf_set {m : Memory} {a : Nat} {b : Byte} (h : Memory.wf m) (ha : isBuffer a = true) :
    Memory.wf (Memory.set m a b) := by
  refine ⟨sorted_set a b h.1, fun c hc => ?_⟩
  rcases mem_set hc with rfl | hc
  · exact ha
  · exact h.2 c hc

theorem wf_store {m : Memory} {a : Nat} {bs : List Byte} (h : Memory.wf m)
    (ha : ∀ i, i < bs.length → isBuffer (a + i) = true) : Memory.wf (Memory.store m a bs) := by
  induction bs generalizing m a with
  | nil => exact h
  | cons b bs ih =>
    refine ih (wf_set h (by simpa using ha 0 (by simp))) fun i hi => ?_
    have := ha (i + 1) (by simp only [List.length_cons]; omega)
    rwa [show a + 1 + i = a + (i + 1) by omega]

theorem wf_clearObuf {m : Memory} (h : Memory.wf m) : Memory.wf (Memory.clearObuf m) :=
  ⟨h.1.filter _, fun c hc => h.2 c (List.mem_filter.1 hc).1⟩

theorem wf_reset : Memory.wf State.reset.mem := wf_nil

/-- Two canonical memories that read alike are equal: equal memories are equal data. -/
theorem wf_ext {m n : Memory} (hm : Memory.wf m) (hn : Memory.wf n)
    (h : ∀ a, Memory.get m a = Memory.get n a) : m = n := by
  have key : ∀ {m : Memory}, m.Pairwise (fun c d => c.1 < d.1) → ∀ c : Host.Cell,
      c ∈ m ↔ Memory.get m c.1 = some c.2 := by
    intro m hm
    induction m with
    | nil => simp
    | cons cell m ih =>
      obtain ⟨k, d⟩ := cell
      obtain ⟨hk, hm⟩ := List.pairwise_cons.1 hm
      rintro ⟨x, y⟩
      rw [List.mem_cons, ih hm, get_cons]
      by_cases hx : k = x
      · subst hx
        have : ¬ Memory.get m k = some y := fun hy => by
          simpa using hk (k, y) ((ih hm (k, y)).2 hy)
        simp [this, eq_comm]
      · simp [hx, eq_comm]
  refine List.Perm.eq_of_pairwise (le := fun c d : Host.Cell => c.1 < d.1)
    (fun c d _ _ h1 h2 => absurd h1 (by omega)) hm.1 hn.1 ?_
  have nodup : ∀ {m : Memory}, m.Pairwise (fun c d => c.1 < d.1) → m.Nodup := fun h =>
    h.imp fun {c d} hlt heq => by simp [heq] at hlt
  exact (List.perm_ext_iff_of_nodup (nodup hm.1) (nodup hn.1)).2 fun c => by
    rw [key hm.1, key hn.1, h]

end Sys2Proof.Machine
end

