-- ==== Sys2Proof/Laws/Ops.lean ====
section
/-! SUPPORT. What each shared operation does to the bytes a read returns, and to the operand strings: one
spec lemma per operation, cited in place of unfolding it. -/

namespace Sys2Proof.Machine

/-! ### One byte -/

theorem readByte_of_listed {s : State} {a : Nat} {b : Byte} (h : Memory.get s.mem a = some b) :
    readByte s a = b := by
  simp [readByte, h]

theorem readByte_of_unlisted {s : State} {a : Nat} (h : Memory.get s.mem a = none) :
    readByte s a = undefinedByte s a := by
  simp [readByte, h]

/-- A byte's value depends on the memory and the draw counters alone. -/
theorem readByte_congr {s t : State} {a : Nat} (hm : Memory.get t.mem a = Memory.get s.mem a)
    (hi : t.inDraw = s.inDraw) (ho : t.outDraw = s.outDraw) : readByte t a = readByte s a := by
  simp [readByte, undefinedByte, hm, hi, ho]

/-- Outside OBUF a byte's value does not depend on OBUF's draw counter. -/
theorem readByte_congr_input {s t : State} {a : Nat} (ha : isObuf a = false)
    (hm : Memory.get t.mem a = Memory.get s.mem a) (hi : t.inDraw = s.inDraw) : readByte t a = readByte s a := by
  simp [readByte, undefinedByte, ha, hm, hi]

@[simp] theorem readByte_writeByte_same (s : State) (a : Nat) (b : Byte) : readByte (writeByte a b s) a = b :=
  readByte_of_listed (by simp)

theorem readByte_writeByte_other (s : State) {a x : Nat} (b : Byte) (h : x ≠ a) :
    readByte (writeByte a b s) x = readByte s x :=
  readByte_congr (by simp [get_set_other _ _ h]) rfl rfl

theorem readByte_writeBytes_inside (s : State) (a : Nat) (bs : List Byte) (i : Nat) (h : i < bs.length) :
    readByte (writeBytes a bs s) (a + i) = bs[i] :=
  readByte_of_listed (by simp [get_store_inside _ _ _ _ h])

theorem readByte_writeBytes_outside (s : State) (a : Nat) (bs : List Byte) (x : Nat)
    (h : x < a ∨ a + bs.length ≤ x) : readByte (writeBytes a bs s) x = readByte s x :=
  readByte_congr (by simp [get_store_outside _ _ _ _ h]) rfl rfl

/-! ### `out` -/

/-- The bytes of OBUF below the new OLEN are the string's (R8). -/
theorem readByte_out_inside (s : State) (bs : List Byte) (i : Nat) (h : i < bs.length) :
    readByte (out bs s) (obufBase + i) = bs[i] :=
  readByte_of_listed (by simp [get_store_inside _ _ _ _ h])

/-- No byte outside OBUF changes. -/
theorem readByte_out_other (s : State) (bs : List Byte) (a : Nat) (hl : bs.length ≤ 128)
    (ha : isObuf a = false) : readByte (out bs s) a = readByte s a := by
  have hn : ¬ (0x180 ≤ a ∧ a < 0x200) := fun hx => by simp [(isObuf_iff a).2 hx] at ha
  refine readByte_congr_input ha ?_ rfl
  rw [out_mem, get_store_outside _ _ _ _ (by simp only [obufBase]; omega), get_clearObuf, ha]
  simp

/-- The bytes of OBUF at or beyond the new OLEN are fresh free values (R38). -/
theorem readByte_out_beyond (s : State) (bs : List Byte) (i : Nat) (h : bs.length ≤ i) (hi : i < 128) :
    readByte (out bs s) (obufBase + i) = Config.freeByte (s.outDraw + 1) (obufBase + i) := by
  have ho : isObuf (obufBase + i) = true := (isObuf_iff _).2 (by simp only [obufBase]; omega)
  rw [readByte_of_unlisted]
  · simp [undefinedByte, ho]
  · rw [out_mem, get_store_outside _ _ _ _ (by omega), get_clearObuf, ho]
    simp

/-- A completion with an output string reads as `out` does. -/
theorem readByte_succeed (s : State) (bs : List Byte) (r0 : Res0) (rid : Residue) (a : Nat) :
    readByte (succeed bs r0 rid s) a = readByte (out bs s) a :=
  readByte_congr (by simp) (by simp) (by simp)

/-- A failing completion reads as `out` of the empty string does. -/
theorem readByte_failKeeping (s : State) (e : ErrCode) (r0 : Res0) (a : Nat) :
    readByte (failKeeping e r0 s) a = readByte (out [] s) a :=
  readByte_congr (by simp [Memory.store]) (by simp) (by simp)

@[simp] theorem readByte_complete (s : State) (e : ErrCode) (a : Nat) :
    readByte (complete e s) a = readByte s a :=
  readByte_congr (by simp) (by simp) (by simp)

@[simp] theorem readByte_startCommand (s : State) (w : Word) (a : Nat) :
    readByte (startCommand w s) a = readByte s a :=
  readByte_congr (by simp) (by simp) (by simp)

@[simp] theorem readByte_refuseRead (s : State) (a : Nat) : readByte (refuseRead s) a = readByte s a :=
  readByte_congr (by simp) (by simp) (by simp)

@[simp] theorem readByte_refuseWrite (s : State) (a : Nat) : readByte (refuseWrite s) a = readByte s a :=
  readByte_congr (by simp) (by simp) (by simp)

/-! ### Strings -/

@[simp] theorem readBytes_length (s : State) (a n : Nat) : (readBytes s a n).length = n := by
  simp [readBytes]

@[simp] theorem readBytes_getElem (s : State) (a n i : Nat) (h : i < (readBytes s a n).length) :
    (readBytes s a n)[i] = readByte s (a + i) := by
  simp [readBytes]

/-- Strings that agree byte by byte are equal. -/
theorem readBytes_congr {s t : State} {a n : Nat} (h : ∀ i, i < n → readByte t (a + i) = readByte s (a + i)) :
    readBytes t a n = readBytes s a n := by
  refine List.ext_getElem (by simp) fun i hi _ => ?_
  simpa using h i (by simpa using hi)

@[simp] theorem inputString_length (s : State) : (inputString s).length = s.ilen.toNat := by
  simp [inputString]

@[simp] theorem prefixString_length (s : State) : (prefixString s).length = s.hlen.toNat := by
  simp [prefixString]

@[simp] theorem outputString_length (s : State) : (outputString s).length = s.olen.toNat := by
  simp [outputString]

/-- After `out bs` the output string is `bs`. -/
theorem outputString_out (s : State) (bs : List Byte) (hl : bs.length ≤ 128) : outputString (out bs s) = bs := by
  have hol : (out bs s).olen.toNat = bs.length := by
    rw [out_olen, BitVec.toNat_ofNat, Nat.mod_eq_of_lt (by omega)]
  refine List.ext_getElem (by rw [outputString_length, hol]) fun i hi h2 => ?_
  simp only [outputString, readBytes_getElem]
  exact readByte_out_inside s bs i h2

/-! ### Phase and status -/

@[simp] theorem busy_complete (e : ErrCode) (s : State) : busy (complete e s) = false := rfl
@[simp] theorem busy_startCommand (w : Word) (s : State) : busy (startCommand w s) = true := rfl
@[simp] theorem busy_resetBlock (s : State) : busy (resetBlock s) = false := rfl
@[simp] theorem busy_refuseRead (s : State) : busy (refuseRead s) = busy s := rfl
@[simp] theorem busy_refuseWrite (s : State) : busy (refuseWrite s) = busy s := rfl

theorem busy_iff (s : State) : busy s = true ↔ ∃ w t, s.phase = .run w t := by
  cases h : s.phase <;> simp [busy, h]

/-- While a command runs the sampled TPLCHK is the engine's private copy (R231). -/
theorem sampledTplchk_run {s : State} {w : Word} {t : Bool} (h : s.phase = .run w t) : sampledTplchk s = t := by
  simp [sampledTplchk, h]

/-! ### The canonical form of the memory -/

theorem wf_out {s : State} {bs : List Byte} (h : Memory.wf s.mem) (hl : bs.length ≤ 128) :
    Memory.wf (out bs s).mem := by
  refine wf_store (wf_clearObuf h) fun i hi => (isBuffer_iff _).2 ?_
  simp only [obufBase]
  omega

theorem wf_writeByte {s : State} {a : Nat} {b : Byte} (h : Memory.wf s.mem) (ha : isBuffer a = true) :
    Memory.wf (writeByte a b s).mem := wf_set h ha

theorem wf_writeBytes {s : State} {a : Nat} {bs : List Byte} (h : Memory.wf s.mem)
    (ha : ∀ i, i < bs.length → isBuffer (a + i) = true) : Memory.wf (writeBytes a bs s).mem := wf_store h ha

theorem wf_succeed {s : State} {bs : List Byte} (r0 : Res0) (rid : Residue) (h : Memory.wf s.mem)
    (hl : bs.length ≤ 128) : Memory.wf (succeed bs r0 rid s).mem := wf_out h hl

theorem wf_failKeeping {s : State} (e : ErrCode) (r0 : Res0) (h : Memory.wf s.mem) :
    Memory.wf (failKeeping e r0 s).mem := wf_clearObuf h

theorem wf_complete {s : State} (e : ErrCode) (h : Memory.wf s.mem) : Memory.wf (complete e s).mem := h

theorem wf_startCommand {s : State} (w : Word) (h : Memory.wf s.mem) : Memory.wf (startCommand w s).mem := h

theorem wf_refuseRead {s : State} (h : Memory.wf s.mem) : Memory.wf (refuseRead s).mem := h

theorem wf_refuseWrite {s : State} (h : Memory.wf s.mem) : Memory.wf (refuseWrite s).mem := h

theorem wf_resetBlock (s : State) : Memory.wf (resetBlock s).mem := wf_nil

end Sys2Proof.Machine
end

