-- ==== Sys2Proof/Laws/Exec.lean ====
section
/-! SUPPORT. What a command and a step can do, said once: every invariant is derived from these inversion
lemmas, without unfolding `exec` or `step` again. -/

namespace Sys2Proof.Machine

/-- What a command that writes results can do: succeed with an output string, or fail with a code (R232, R250). -/
def Finishes (s : State) (o : Host.Outcome State Fault Refusal) : Prop :=
  (∃ bs r0 rid, o = .next (succeed bs r0 rid s)) ∨ ∃ e r0, e ≠ .ok ∧ o = .next (failKeeping e r0 s)

theorem finishes_succeed (s : State) (bs : List Byte) (r0 : Res0) (rid : Residue) :
    Finishes s (.next (succeed bs r0 rid s)) := .inl ⟨bs, r0, rid, rfl⟩

theorem finishes_failKeeping (s : State) {e : ErrCode} (r0 : Res0) (he : e ≠ .ok) :
    Finishes s (.next (failKeeping e r0 s)) := .inr ⟨e, r0, he, rfl⟩

theorem finishes_failWith (s : State) {e : ErrCode} (he : e ≠ .ok) : Finishes s (.next (failWith e s)) :=
  finishes_failKeeping s noRes0 he

theorem execB58cEnc_finishes (ver : Byte) (s : State) : Finishes s (execB58cEnc ver s) := by
  unfold execB58cEnc
  split
  · exact finishes_failWith s (by decide)
  · exact finishes_succeed ..

theorem finishB58cDec_finishes (ver : Byte) (p : List Byte) (s : State) (r : TemplateResult) :
    Finishes s (.next (finishB58cDec ver p s r)) := by
  cases r with
  | notTested => exact finishes_succeed ..
  | unknownVersion => exact finishes_failKeeping s _ (by decide)
  | wrongLength => exact finishes_failWith s (by decide)
  | hit idx => exact finishes_succeed ..

theorem execB58cDec_finishes (s : State) : Finishes s (execB58cDec s) := by
  unfold execB58cDec
  split
  · exact finishes_failWith s (by decide)
  · split
    · exact finishes_failWith s (by decide)
    · exact finishB58cDec_finishes ..

theorem execB58Enc_finishes (s : State) : Finishes s (execB58Enc s) := by
  unfold execB58Enc
  split
  · exact finishes_failWith s (by decide)
  · exact finishes_succeed ..

theorem execB58Dec_finishes (s : State) : Finishes s (execB58Dec s) := by
  unfold execB58Dec
  split
  · exact finishes_failWith s (by decide)
  · split
    · exact finishes_failWith s (by decide)
    · exact finishes_succeed ..

theorem execHash256_finishes (s : State) : Finishes s (execHash256 s) := by
  unfold execHash256
  split
  · exact finishes_failWith s (by decide)
  · exact finishes_succeed ..

theorem execCksum4_finishes (s : State) : Finishes s (execCksum4 s) := by
  unfold execCksum4
  split
  · exact finishes_failWith s (by decide)
  · exact finishes_succeed ..

theorem execB32Group_finishes (s : State) : Finishes s (execB32Group s) := by
  unfold execB32Group
  split
  · exact finishes_failWith s (by decide)
  · exact finishes_succeed ..

theorem execB32Ungroup_finishes (s : State) : Finishes s (execB32Ungroup s) := by
  unfold execB32Ungroup
  split
  · exact finishes_failWith s (by decide)
  · split
    · exact finishes_failWith s (by decide)
    · split
      · exact finishes_failWith s (by decide)
      · exact finishes_succeed ..

theorem execB32Polymod_finishes (s : State) : Finishes s (execB32Polymod s) := by
  unfold execB32Polymod
  repeat' split
  all_goals first
    | exact finishes_failWith s (by decide)
    | exact finishes_succeed ..

theorem execB32Cksum_finishes (var : Variant) (s : State) : Finishes s (execB32Cksum var s) := by
  unfold execB32Cksum
  repeat' split
  all_goals first
    | exact finishes_failWith s (by decide)
    | exact finishes_succeed ..

theorem execB32Enc_finishes (var : Variant) (s : State) : Finishes s (execB32Enc var s) := by
  unfold execB32Enc
  repeat' split
  all_goals first
    | exact finishes_failWith s (by decide)
    | exact finishes_succeed ..

/-- Every command but NOP and MOV.O2I succeeds with an output string or fails with a code. -/
theorem exec_finishes (i : Instr) (s : State) :
    Finishes s (exec i s) ∨ (i = .nop ∧ exec i s = .next (complete .ok s)) ∨
      ∃ off, i = .movO2I off ∧ exec i s = execMovO2I off s := by
  cases i with
  | nop => exact .inr (.inl ⟨rfl, rfl⟩)
  | b58cEnc ver => exact .inl (execB58cEnc_finishes ver s)
  | b58cDec => exact .inl (execB58cDec_finishes s)
  | b58Enc => exact .inl (execB58Enc_finishes s)
  | b58Dec => exact .inl (execB58Dec_finishes s)
  | hash256 => exact .inl (execHash256_finishes s)
  | cksum4 => exact .inl (execCksum4_finishes s)
  | b32Group => exact .inl (execB32Group_finishes s)
  | b32Ungroup => exact .inl (execB32Ungroup_finishes s)
  | b32Polymod => exact .inl (execB32Polymod_finishes s)
  | b32Cksum var => exact .inl (execB32Cksum_finishes var s)
  | b32Enc var => exact .inl (execB32Enc_finishes var s)
  | movO2I off => exact .inr (.inr ⟨off, rfl, rfl⟩)

/-- What MOV.O2I can do (R236). -/
theorem execMovO2I_cases (off : Byte) (s : State) :
    (128 < off.toNat + s.olen.toNat ∧ execMovO2I off s = .next (complete .len s)) ∨
    (off.toNat + s.olen.toNat ≤ 128 ∧ execMovO2I off s =
      .next (complete .ok { writeBytes (ibufBase + off.toNat) (outputString s) s with
        ilen := BitVec.ofNat 8 (off.toNat + s.olen.toNat) })) := by
  unfold execMovO2I
  split
  · exact .inl ⟨‹_›, rfl⟩
  · exact .inr ⟨by omega, rfl⟩

/-- Everything a command can do, when it answers a next state (it always does). -/
theorem exec_cases {i : Instr} {s t : State} (h : exec i s = .next t) :
    (i = .nop ∧ t = complete .ok s) ∨
    (∃ off, i = .movO2I off ∧
      ((128 < off.toNat + s.olen.toNat ∧ t = complete .len s) ∨
        (off.toNat + s.olen.toNat ≤ 128 ∧
          t = complete .ok { writeBytes (ibufBase + off.toNat) (outputString s) s with
            ilen := BitVec.ofNat 8 (off.toNat + s.olen.toNat) }))) ∨
    (∃ bs r0 rid, t = succeed bs r0 rid s) ∨ ∃ e r0, e ≠ .ok ∧ t = failKeeping e r0 s := by
  rcases exec_finishes i s with (⟨bs, r0, rid, hf⟩ | ⟨e, r0, he, hf⟩) | ⟨hi, hf⟩ | ⟨off, hi, hf⟩
  · rw [h] at hf
    exact .inr (.inr (.inl ⟨bs, r0, rid, by injection hf⟩))
  · rw [h] at hf
    exact .inr (.inr (.inr ⟨e, r0, he, by injection hf⟩))
  · rw [h] at hf
    exact .inl ⟨hi, by injection hf⟩
  · rw [h] at hf
    refine .inr (.inl ⟨off, hi, ?_⟩)
    rcases execMovO2I_cases off s with ⟨hl, hm⟩ | ⟨hl, hm⟩ <;> rw [hm] at hf <;> injection hf with hf
    · exact .inl ⟨hl, hf⟩
    · exact .inr ⟨hl, hf⟩

/-- A step with nothing scheduled is the engine's turn; else it is the first scheduled event. -/
theorem step_cases {s : State} {o : Host.Outcome State Fault Refusal} (h : step s = o) :
    (s.pending = [] ∧ engineTurn s = o) ∨
    ∃ e rest, s.pending = e :: rest ∧ handleEvent e { s with pending := rest } = o := by
  simp only [step, stepState] at h
  split at h
  · exact .inl ⟨‹_›, h⟩
  · exact .inr ⟨_, _, ‹_›, h⟩

/-- The engine's turn: nothing when idle, else the completion of the word it holds. -/
theorem engineTurn_cases {s : State} {o : Host.Outcome State Fault Refusal} (h : engineTurn s = o) :
    (s.phase = .idle ∧ o = .next s) ∨
    ∃ w tc, s.phase = .run w tc ∧
      ((∃ r, decodeWord w = .illegal r ∧ o = .next (failWith .illegalCmd s)) ∨
        ∃ i, decodeWord w = .command i ∧ o = exec i s) := by
  simp only [engineTurn, runCommand] at h
  split at h
  · exact .inl ⟨‹_›, h.symm⟩
  · refine .inr ⟨_, _, ‹_›, ?_⟩
    split at h
    · exact .inl ⟨_, ‹_›, h.symm⟩
    · exact .inr ⟨_, ‹_›, h.symm⟩

/-- A read is refused, or answers with a value; nothing else changes (R65). -/
theorem hostRead_cases (off : Offset) (size : Size) (s : State) :
    (readTarget s off size = none ∧ hostRead off size s = refuseRead s) ∨
    ∃ t, readTarget s off size = some t ∧
      hostRead off size s = { s with resp := some (.readOk (readValue s t)) } := by
  cases h : readTarget s off size <;> simp [hostRead, h]

/-- A write is refused, or has the effect of its place (R66). -/
theorem hostWrite_cases (off : Offset) (size : Size) (v : Word) (s : State) :
    (writeTarget s off size = none ∧ hostWrite off size v s = refuseWrite s) ∨
    ∃ t, writeTarget s off size = some t ∧
      hostWrite off size v s = { writeValue v s t with resp := some .writeOk } := by
  cases h : writeTarget s off size <;> simp [hostWrite, h]

end Sys2Proof.Machine
end

