-- ==== Sys2Proof/Laws/PerInstr.lean ====
section
/-! SUPPORT. Statements made of every instruction, one lemma per constructor of `Instr`. -/

namespace Sys2Proof.Laws.EncodesToRow

/-- The command's word is selected by the row of the opcode map that carries its mnemonic (R92, R95, R101). -/
def Statement (i : Instr) : Prop := ∃ r ∈ rows, r.mnemonic = i.mnemonic ∧ r.selects (encode i) = true

/-- The word of a format A8 row with any argument is selected by the row. -/
theorem selects_a8 (op : Nat) (mnemonic : String) (h : op < 16) (arg : Byte) :
    Row.selects ⟨op, mnemonic, .a8⟩ (BitVec.ofNat 32 op + (arg.setWidth 32 <<< 8)) = true := by
  have key : ∀ (o : Fin 16) (v : Byte),
      (BitVec.ofNat 32 o.val + (v.setWidth 32 <<< 8)) &&& 0xFFFF00FF#32 = BitVec.ofNat 32 o.val := by
    decide +kernel
  simpa [Row.selects, Format.mask] using key ⟨op, h⟩ arg

theorem nop : Statement .nop := ⟨⟨0x0, "NOP", .z⟩, by simp [rows], rfl, by decide⟩
theorem b58cEnc (ver : Byte) : Statement (.b58cEnc ver) :=
  ⟨⟨0x1, "B58C.ENC", .a8⟩, by simp [rows], rfl, selects_a8 0x1 _ (by decide) ver⟩
theorem b58cDec : Statement .b58cDec := ⟨⟨0x2, "B58C.DEC", .z⟩, by simp [rows], rfl, by decide⟩
theorem b58Enc : Statement .b58Enc := ⟨⟨0x3, "B58.ENC", .z⟩, by simp [rows], rfl, by decide⟩
theorem b58Dec : Statement .b58Dec := ⟨⟨0x4, "B58.DEC", .z⟩, by simp [rows], rfl, by decide⟩
theorem hash256 : Statement .hash256 := ⟨⟨0x5, "HASH256", .z⟩, by simp [rows], rfl, by decide⟩
theorem cksum4 : Statement .cksum4 := ⟨⟨0x6, "CKSUM4", .z⟩, by simp [rows], rfl, by decide⟩
theorem b32Group : Statement .b32Group := ⟨⟨0x7, "B32.GROUP", .z⟩, by simp [rows], rfl, by decide⟩
theorem b32Ungroup : Statement .b32Ungroup := ⟨⟨0x8, "B32.UNGROUP", .z⟩, by simp [rows], rfl, by decide⟩
theorem b32Polymod : Statement .b32Polymod := ⟨⟨0x9, "B32.POLYMOD", .z⟩, by simp [rows], rfl, by decide⟩
theorem b32Cksum (var : Variant) : Statement (.b32Cksum var) :=
  ⟨⟨0xA, "B32.CKSUM", .a1⟩, by simp [rows], rfl, by cases var <;> decide⟩
theorem b32Enc (var : Variant) : Statement (.b32Enc var) :=
  ⟨⟨0xB, "B32.ENC", .a1⟩, by simp [rows], rfl, by cases var <;> decide⟩
theorem movO2I (off : Byte) : Statement (.movO2I off) :=
  ⟨⟨0xC, "MOV.O2I", .a8⟩, by simp [rows], rfl, selects_a8 0xC _ (by decide) off⟩

end Sys2Proof.Laws.EncodesToRow
end

