-- ==== Sys2Proof/Laws/Safety.lean ====
section
/-! SUPPORT. What agreement on a command's operands gives: equal operand strings (R9, R39), so that a proof cites
these lemmas and reads no byte. -/

namespace Sys2Proof.Machine

theorem inputString_congr {bound : Nat} {s s' : State} (h : SameInput bound s s') (hl : s.ilen.toNat ≤ bound) :
    inputString s = inputString s' := by
  unfold inputString
  rw [← h.1]
  exact readBytes_congr fun k hk => h.2 hl k hk

theorem badPrefixLength_congr {s s' : State} (h : SamePrefix s s') : badPrefixLength s = badPrefixLength s' := by
  simp [badPrefixLength, h.1]

theorem prefixString_congr {s s' : State} (h : SamePrefix s s') (hb : badPrefixLength s = false) :
    prefixString s = prefixString s' := by
  simp only [badPrefixLength, Config.hrpMin, Config.hrpMax, decide_eq_false_iff_not, not_or, Nat.not_lt] at hb
  unfold prefixString
  rw [← h.1]
  exact readBytes_congr fun k hk => h.2 hb.1 hb.2 k hk

theorem outputString_congr {off : Byte} {s s' : State} (h : SameOutput off s s')
    (hl : off.toNat + s.olen.toNat ≤ 128) : outputString s = outputString s' := by
  unfold outputString
  rw [← h.1]
  exact readBytes_congr fun k hk => h.2 hl k hk

/-- The template test depends on the sampled TPLCHK and, only if it is 1, on the table (R175, R179). -/
theorem templateTest_congr {s s' : State} (h : SameTemplates s s') (ver : Byte) (plen : Nat) :
    templateTest (sampledTplchk s) s.tpl ver plen = templateTest (sampledTplchk s') s'.tpl ver plen := by
  rw [← h.1]
  cases ht : sampledTplchk s
  · rfl
  · rw [h.2 ht]

end Sys2Proof.Machine
end

