-- ==== Sys2Proof/Laws/Tables.lean ====
section
/-! SUPPORT. The small laws of the tables and of the functions on strings: lengths, and which way the
alphabets map. -/

namespace Sys2Proof.Machine

/-! ### Alphabets -/

@[simp] theorem alphabet58_length : alphabet58.length = 58 := by decide

@[simp] theorem alphabet32_length : alphabet32.length = 32 := by decide

/-- The 58 characters are distinct, so each has its digit back (R120). -/
theorem v58_a58 (d : Nat) (h : d < 58) : v58 (a58 d) = some d := by
  have key : ∀ d : Fin 58, v58 (a58 d.val) = some d.val := by decide +kernel
  exact key ⟨d, h⟩

/-- A character that has a digit is that digit's character, and the digit is below 58 (R120). -/
theorem a58_v58 {c : Byte} {d : Nat} (h : v58 c = some d) : d < 58 ∧ a58 d = c := by
  have key : ∀ c : Byte, (v58 c).all fun d => decide (d < 58 ∧ a58 d = c) := by decide +kernel
  simpa [h] using key c

/-- The character `'1'` is the digit 0 (R120). -/
theorem v58_one : v58 (ascii '1') = some 0 := by decide

/-- No character of the Bech32 alphabet is the separator or upper case (R205, R222). -/
theorem a32_not_separator (x : Symbol) : a32 x ≠ separator ∧ ¬ (0x41 ≤ (a32 x).toNat ∧ (a32 x).toNat ≤ 0x5A) := by
  have key : ∀ x : Symbol, a32 x ≠ separator ∧ ¬ (0x41 ≤ (a32 x).toNat ∧ (a32 x).toNat ≤ 0x5A) := by
    decide +kernel
  exact key x

/-! ### Numbers and strings -/

/-- The loop of R121 puts new digits in front of the ones it has. -/
theorem digits58_append (k n : Nat) (d : List Nat) : digits58 k n d = digits58 k n [] ++ d := by
  induction k generalizing n d with
  | zero => simp [digits58]
  | succ k ih =>
    simp only [digits58]
    split
    · simp
    · rw [ih, ih (n / 58) [n % 58]]
      simp

theorem bytesOfNat_append (k n : Nat) (d : List Byte) : bytesOfNat k n d = bytesOfNat k n [] ++ d := by
  induction k generalizing n d with
  | zero => simp [bytesOfNat]
  | succ k ih =>
    simp only [bytesOfNat]
    split
    · simp
    · rw [ih, ih (n / 256) [BitVec.ofNat 8 (n % 256)]]
      simp

theorem beNat_snoc (bs : List Byte) (b : Byte) : beNat (bs ++ [b]) = 256 * beNat bs + b.toNat := by
  simp [beNat]

theorem valueOf58_snoc (t : List Byte) (c : Byte) : valueOf58 (t ++ [c]) = 58 * valueOf58 t + digitOf c := by
  simp [valueOf58]

theorem beNat_lt (bs : List Byte) : beNat bs < 256 ^ bs.length := by
  induction bs using List.reverseRecOn with
  | nil => simp [beNat]
  | append_singleton bs b ih =>
    rw [beNat_snoc, List.length_append, List.length_singleton, Nat.pow_succ]
    have := b.isLt
    omega

/-! ### Digest lengths -/

@[simp] theorem be4_length (x : Word) : (be4 x).length = 4 := rfl

@[simp] theorem be8_length (x : BitVec 64) : (be8 x).length = 8 := by simp [be8]

@[simp] theorem sha256_length (m : List Byte) : (sha256 m).length = 32 := by simp [sha256, digest]

@[simp] theorem h256_length (m : List Byte) : (h256 m).length = 32 := by simp [h256]

@[simp] theorem ck4_length (m : List Byte) : (ck4 m).length = 4 := by simp [ck4]

@[simp] theorem checksumSymbols_length (p : Residue) : (checksumSymbols p).length = 6 := by
  simp [checksumSymbols]

@[simp] theorem bytesOfSymbols_length (v : List Symbol) : (bytesOfSymbols v).length = v.length := by
  simp [bytesOfSymbols]

@[simp] theorem symbolsOf_length (bs : List Byte) : (symbolsOf bs).length = bs.length := by
  simp [symbolsOf]

@[simp] theorem packText_length (var : Variant) (h : List Byte) (v : List Symbol) :
    (packText var h v).length = h.length + v.length + 7 := by
  simp [packText]; omega

@[simp] theorem bitsOf_length {n : Nat} (x : BitVec n) : (bitsOf x).length = n := by simp [bitsOf]

@[simp] theorem bits8_length (b : List Byte) : (bits8 b).length = 8 * b.length := by
  induction b with
  | nil => rfl
  | cons x b ih => simp only [bits8, List.flatMap_cons, List.length_append, bitsOf_length] at ih ⊢; simp only [ih, List.length_cons]; omega

@[simp] theorem bits5_length (v : List Symbol) : (bits5 v).length = 5 * v.length := by
  induction v with
  | nil => rfl
  | cons x v ih => simp only [bits5, List.flatMap_cons, List.length_append, bitsOf_length] at ih ⊢; simp only [ih, List.length_cons]; omega

/-- Symbols survive being stored one to a byte (R35, R37). -/
theorem symbolsOf_bytesOfSymbols (v : List Symbol) : symbolsOf (bytesOfSymbols v) = v := by
  have key : ∀ x : Symbol, (x.setWidth 8).setWidth 5 = x := by decide
  simp [symbolsOf, bytesOfSymbols, Function.comp_def, key]

end Sys2Proof.Machine
end

