-- ==== Sys2Proof/Tests/Slice0.lean ====
section
/-! SUPPORT. Tests. The expected values are those of spec/95_test_vectors.md (the vector is named beside each
test), or are written out from the rule named. The witnesses at the end show, for each statement with hypotheses,
a state and operands that meet them, at the ends of their ranges. -/

namespace Sys2Proof.Tests

set_option Elab.async false

open Sys2Proof Machine

/-! ## Helpers -/

/-- The ASCII codes of a text. -/
def text (s : String) : List Byte := s.toList.map ascii

/-- The reset state with a prefix in HBUF and an input string in IBUF. -/
def load (h i : List Byte) : State :=
  { State.reset with
    hlen := BitVec.ofNat 8 h.length
    ilen := BitVec.ofNat 8 i.length
    mem := Memory.store (Memory.store [] 0x080 h) 0x100 i }

/-- With an output string in OBUF. -/
def withOut (o : List Byte) (s : State) : State :=
  { s with olen := BitVec.ofNat 8 o.length, mem := Memory.store s.mem 0x180 o }

/-- With a command running. -/
def running (w : Word) (s : State) : State := { s with cmd := w, phase := .run w s.tplchk, done := false, fail := false }

/-- With entries of the template table, each a row (index, length, version). -/
def withTemplates (rs : List (Fin 16 × Byte × Byte)) (s : State) : State :=
  rs.foldl (fun s r => { s with tpl := s.tpl.set r.1.val ⟨r.2.1, r.2.2, true⟩ r.1.isLt }) { s with tplchk := true }

/-- ERR, OBUF up to OLEN, RES0 and RESID after a command. -/
def results : Host.Outcome State Fault Refusal → Option (Nat × List Byte × Nat × Nat)
  | .next s => some ((errNumber s.err).toNat, outputString s, (res0Word s.res0).toNat, s.resid.toNat)
  | .fault _ => none
  | .refused _ => none

/-- STATUS after a command. -/
def status : Host.Outcome State Fault Refusal → Option Nat
  | .next s => some (statusWord s).toNat
  | .fault _ => none
  | .refused _ => none

/-- The state `n` steps on. -/
def after : Nat → State → State
  | 0, s => s
  | n + 1, s =>
    match step s with
    | .next t => after n t
    | .fault _ => s
    | .refused _ => s

/-- The bytes 00 01 .. 13 of scenario S6. -/
def payload20 : List Byte := (List.range 20).map (BitVec.ofNat 8)

/-! ## Well-formedness: each check refuses a term that fails it -/

theorem test_opKnown_refuses : (AsmCommand.mk 13 none).opKnown = false := by decide
theorem test_argPresence_refuses_extra : (AsmCommand.mk 2 (some 0)).argPresence = false := by decide
theorem test_argPresence_refuses_missing : (AsmCommand.mk 1 none).argPresence = false := by decide
theorem test_argInRange_refuses_256 : (AsmCommand.mk 1 (some 256)).argInRange = false := by decide
theorem test_argInRange_refuses_var_2 : (AsmCommand.mk 10 (some 2)).argInRange = false := by decide
theorem test_wf_refuses : (AsmCommand.mk 13 none).wf = false ∧ (AsmCommand.mk 2 (some 0)).wf = false ∧
    (AsmCommand.mk 1 none).wf = false ∧ (AsmCommand.mk 12 (some 256)).wf = false := by decide
theorem test_wf_accepts : (AsmCommand.mk 12 (some 255)).wf = true ∧ (AsmCommand.mk 11 (some 1)).wf = true ∧
    (AsmCommand.mk 0 none).wf = true := by decide
theorem test_legalWord_refuses : legalWord 0x0000000D = false ∧ legalWord 0x00000102 = false ∧
    legalWord 0x0000020A = false ∧ legalWord 0x00000013 = false ∧ legalWord 0x00010003 = false := by decide
theorem test_legalWord_accepts : legalWord 0x0000FF01 = true ∧ legalWord 0x0000010B = true := by decide

/-! ## Decoding: a word of every command, written out from R95 and R101, and the words of section 2.6 -/

theorem test_decode_nop : decodeWord 0b00000000000000000000000000000000 = .command .nop := by decide
theorem test_decode_b58cEnc : decodeWord 0b00000000000000000111101000000001 = .command (.b58cEnc 122) := by decide
theorem test_decode_b58cDec : decodeWord 0b00000000000000000000000000000010 = .command .b58cDec := by decide
theorem test_decode_b58Enc : decodeWord 0b00000000000000000000000000000011 = .command .b58Enc := by decide
theorem test_decode_b58Dec : decodeWord 0b00000000000000000000000000000100 = .command .b58Dec := by decide
theorem test_decode_hash256 : decodeWord 0b00000000000000000000000000000101 = .command .hash256 := by decide
theorem test_decode_cksum4 : decodeWord 0b00000000000000000000000000000110 = .command .cksum4 := by decide
theorem test_decode_b32Group : decodeWord 0b00000000000000000000000000000111 = .command .b32Group := by decide
theorem test_decode_b32Ungroup : decodeWord 0b00000000000000000000000000001000 = .command .b32Ungroup := by decide
theorem test_decode_b32Polymod : decodeWord 0b00000000000000000000000000001001 = .command .b32Polymod := by decide
theorem test_decode_b32Cksum : decodeWord 0b00000000000000000000000000001010 = .command (.b32Cksum .bech32) ∧
    decodeWord 0b00000000000000000000000100001010 = .command (.b32Cksum .bech32m) := by decide
theorem test_decode_b32Enc : decodeWord 0b00000000000000000000000000001011 = .command (.b32Enc .bech32) ∧
    decodeWord 0b00000000000000000000000100001011 = .command (.b32Enc .bech32m) := by decide
theorem test_decode_movO2I : decodeWord 0b00000000000000001000000000001100 = .command (.movO2I 128) := by decide

/-- V-ENC-5, 7, 8, 11 to 14. -/
theorem test_decode_illegal : decodeWord 0x00000102 = .illegal .argNonZero ∧
    decodeWord 0x0000020A = .illegal .argHighNonZero ∧ decodeWord 0x0000030B = .illegal .argHighNonZero ∧
    decodeWord 0x0000000D = .illegal .reservedOp ∧ decodeWord 0x0000000E = .illegal .reservedOp ∧
    decodeWord 0x0000000F = .illegal .reservedOp ∧ decodeWord 0x00000013 = .illegal .z0NonZero ∧
    decodeWord 0x00010003 = .illegal .z1NonZero ∧ decodeWord 0xFFFFFFFF = .illegal .z1NonZero := by decide

theorem test_decodeTableWord : decodeTableWord 32 0x610C = some (.movO2I 97) ∧ decodeTableWord 32 0xD = none ∧
    decodeTableWord 40 0 = none := by decide

/-- R101: an argument out of range is no command; 97 is MOV.O2I's of V-CTL-5. -/
theorem test_assemble : assemble ⟨12, some 97⟩ = some 0x0000610C ∧ assemble ⟨12, some 256⟩ = none := by decide

/-! ## The commands -/

/-- V-CTL-3: ERR and FAIL are cleared, OLEN and OBUF stay. -/
theorem test_nop : (status (exec .nop { withOut [7, 8] (running 0 (load [] [])) with err := .b58Alphabet })) = some 2 ∧
    results (exec .nop { withOut [7, 8] (running 0 (load [] [])) with err := .b58Alphabet }) =
      some (0, [7, 8], 0, 0) := by decide +kernel

/-- V-B58C-1. -/
theorem test_b58cEnc : results (exec (.b58cEnc 122) (load [] payload20)) =
    some (0, text "r6EcLGwmxMaN6r583sMJkirPtEAbfrdFcU", 0, 0) := by decide +kernel
/-- V-B58C-6: version 0 and a payload that starts with a zero byte. -/
theorem test_b58cEnc_zeros : results (exec (.b58cEnc 0) (load [] payload20)) =
    some (0, text "112D2adLM3UKy4Z4giRbReR6gjWuvHUqB", 0, 0) := by decide +kernel

/-- V-B58C-11c: the smallest matching index. -/
theorem test_b58cDec : results (exec .b58cDec (withTemplates [(3, 0x20, 0x7A), (5, 0x14, 0x7A), (9, 0x14, 0x7A)]
    (load [] (text "r6EcLGwmxMaN6r583sMJkirPtEAbfrdFcU")))) = some (0, payload20, 0x0015147A, 0) := by decide +kernel
/-- V-B58C-11: E_B58_PREFIX keeps VER and PAYLEN. -/
theorem test_b58cDec_prefix : results (exec .b58cDec (withTemplates [(0, 0x14, 0x7A)]
    (load [] (text "R9HDHYTuwAr3PyRkXrhYgwycrxC7Xja8zs")))) = some (2, [], 0x0000143C, 0) := by decide +kernel

/-- V-B58-9. -/
theorem test_b58Enc : results (exec .b58Enc (load [] [0x00, 0x00, 0x28, 0x7F, 0xB4, 0xCD])) =
    some (0, text "11233QC4", 0, 0) := by decide +kernel
/-- V-B58-12: the largest input fills OBUF. -/
theorem test_b58Enc_largest : b58enc (List.replicate 93 0xFF) =
    text "22UzJUbV3TnAhvzqfW411nkMuSfpgxfYfuuCyNPtrA9EQTViEdsmiBAqEyGP4EGFHb1c7XKWFmjWj9uzBdg8kpCVXAaWVGQmovSTnFjSjEEa9sAZqKUYrvnvgVzUJ7av" := by
  decide +kernel

/-- V-B58-22. -/
theorem test_b58Dec : results (exec .b58Dec (load [] (text "2NEpo7TZRRrLZSi2U"))) =
    some (0, [0x48, 0x65, 0x6C, 0x6C, 0x6F, 0x20, 0x57, 0x6F, 0x72, 0x6C, 0x64, 0x21], 0, 0) := by decide +kernel
/-- V-B58-20: no trimming. -/
theorem test_b58Dec_alphabet : results (exec .b58Dec (load [] (text " 5Q"))) = some (3, [], 0, 0) ∧
    results (exec .b58Dec (load [] (text "5Q "))) = some (3, [], 0, 0) := by decide +kernel

/-- V-H-7: the shortest message of two blocks. -/
theorem test_hash256 : (results (exec .hash256 (load [] (List.replicate 56 0x61)))).map (fun r => (r.1, beNat r.2.1)) =
    some (0, 0x122cf0fa8f81dae14842491eedeab26374370514f6c4413bcc32352ae586b39e) := by decide +kernel
/-- V-H-12. -/
theorem test_hash256_len : results (exec .hash256 { load [] [] with ilen := 129 }) = some (8, [], 0, 0) := by
  decide +kernel

/-- V-H-3. -/
theorem test_cksum4 : results (exec .cksum4 (load [] [0x61, 0x62, 0x63])) = some (0, [0x4F, 0x8B, 0x42, 0xC2], 0, 0) := by
  decide +kernel

/-- V-GRP-5 and V-GRP-7. -/
theorem test_b32Group : results (exec .b32Group (load [] [0x01])) = some (0, [0x00, 0x04], 0, 0) ∧
    results (exec .b32Group (load [] [0, 1, 2, 3, 4])) =
      some (0, [0x00, 0x00, 0x00, 0x10, 0x04, 0x00, 0x18, 0x04], 0, 0) := by decide +kernel

/-- V-GRP-22 and V-GRP-21. -/
theorem test_b32Ungroup : results (exec .b32Ungroup (load [] [0, 0, 0, 0, 0x10])) = some (0, [0, 0, 8], 0, 0) ∧
    results (exec .b32Ungroup (load [] [0, 0, 0, 0, 0x01])) = some (4, [], 0, 0) := by decide +kernel
/-- V-GRP-27: E_VALUE before E_B32_FORMAT. -/
theorem test_b32Ungroup_value : results (exec .b32Ungroup (load [] [0x20])) = some (7, [], 0, 0) := by decide +kernel

/-- V-B32-8, for the symbols of V-B32-2. -/
theorem test_b32Polymod : results (exec .b32Polymod (load (text "a") [0x1F, 0x00, 0x09, 0x13, 0x11, 0x1D])) =
    some (0, [], 0, 0x2BC830A3) := by decide +kernel
/-- V-B32-16. -/
theorem test_b32Polymod_hrp : results (exec .b32Polymod (load [] [])) = some (6, [], 0, 0) ∧
    results (exec .b32Polymod { load [] [] with hlen := 84 }) = some (6, [], 0, 0) := by decide +kernel

/-- V-B32-1 and V-B32-2. -/
theorem test_b32Cksum : results (exec (.b32Cksum .bech32) (load (text "a") [])) =
      some (0, [0x0A, 0x1C, 0x19, 0x1F, 0x14, 0x1F], 0, 0x15CCFE9F) ∧
    results (exec (.b32Cksum .bech32m) (load (text "a") [])) =
      some (0, [0x1F, 0x00, 0x09, 0x13, 0x11, 0x1D], 0, 0x3E04CE3D) := by decide +kernel

/-- V-B32-23. -/
theorem test_b32Enc : results (exec (.b32Enc .bech32) (load (text "a1") [0])) =
    some (0, text "a11qnqwhfg", 0, 0x26075D28) := by decide +kernel
/-- V-B32-18 and V-B32-21: the order of the tests. -/
theorem test_b32Enc_order : results (exec (.b32Enc .bech32) (load (text "rRic") (List.replicate 80 0))) =
      some (5, [], 0, 0) ∧
    results (exec (.b32Enc .bech32) (load (text "rRic") [0x20])) = some (6, [], 0, 0) := by decide +kernel

/-- V-CTL-6, with an output string of two bytes: it may end at the end of IBUF. -/
theorem test_movO2I : (match exec (.movO2I 126) (withOut [0xAA, 0xBB] (load [] [1])) with
    | .next t => (t.ilen, readByte t 0x100, readByte t 0x17E, readByte t 0x17F, readByte t 0x180, t.olen)
    | .fault _ | .refused _ => (0, 0, 0, 0, 0, 0)) = (128, 1, 0xAA, 0xBB, 0xAA, 2) := by decide +kernel
/-- V-CTL-5: nothing is written, OLEN and OBUF stay. -/
theorem test_movO2I_len : (match exec (.movO2I 127) (withOut [0xAA, 0xBB] (load [] [1])) with
    | .next t => (t.err, t.ilen, readByte t 0x100, readByte t 0x180, t.olen)
    | .fault _ | .refused _ => (.ok, 0, 0, 0, 0)) = (.len, 1, 1, 0xAA, 2) := by decide +kernel

/-! ## The register port, reset and steps -/

/-- V-CTL-2: the first command after reset. -/
theorem test_step_nop : status (step (State.reset.withFetchWord 32 0)) = some 2 := by decide +kernel
/-- Section 2.6: an illegal word completes with ERR = 0x09 and STATUS = 6. -/
theorem test_step_illegal : status (step (State.reset.withFetchWord 32 0xD)) = some 6 ∧
    results (step (State.reset.withFetchWord 32 0xD)) = some (9, [], 0, 0) := by decide +kernel
/-- V-CTL-1. -/
theorem test_read_id : (after 1 { State.reset with pending := [.read 0 .word] }).resp = some (.readOk 0x42353843) := by
  decide +kernel
/-- V-CTL-11. -/
theorem test_ctrl_reserved : (after 2 { State.reset with
    pending := [.write 4 .word 0x7FFFFFFF, .read 4 .word] }).resp = some (.readOk 3) := by decide +kernel
/-- V-CTL-12. -/
theorem test_ilen_byte : (after 2 { State.reset with
    pending := [.write 0x14 .word 0x12345678, .read 0x14 .word] }).resp = some (.readOk 0x78) := by decide +kernel
/-- V-CTL-13. -/
theorem test_tpl_reserved : (after 2 { State.reset with
    pending := [.write 0x48 .word 0xFFFFFFFF, .read 0x48 .word] }).resp = some (.readOk 0x8000FFFF) := by decide +kernel
/-- V-CTL-10, with HFAULT and FAIL set. -/
theorem test_status_w1c : statusWord (after 1 { State.reset with
    done := true, fail := true, hfault := true, pending := [.write 0xC .word 0xFFFFFFFF] }) = 0xC := by decide +kernel
/-- V-CTL-14: the writes, then the reads. -/
theorem test_refused_writes : ([(0x000, Size.word), (0x01C, .word), (0x180, .byte)].all fun p =>
    (after 1 { State.reset with pending := [.write p.1 p.2 1] }).resp == some .writeError) = true := by decide +kernel
theorem test_refused_reads : ([(0x028, Size.word), (0x0D3, .byte), (0x00C, .byte), (0x100, .word), (0x006, .word)].all
    fun p => (after 1 { State.reset with pending := [.read p.1 p.2] }).hfault) = true := by decide +kernel
/-- V-CTL-15: while a command runs. -/
theorem test_busy_status : (after 1 { running 3 State.reset with pending := [.read 0xC .word] }).resp =
    some (.readOk 1) := by decide +kernel
/-- V-CTL-16: a write of CMD while a command runs. -/
theorem test_busy_cmd : (after 1 { running 3 State.reset with pending := [.write 8 .word 0] }).phase = .run 3 false ∧
    (after 1 { running 3 State.reset with pending := [.write 8 .word 0] }).hfault = true := by decide +kernel
/-- V-CTL-17: a soft reset abandons the running command, and CTRL is 0. -/
theorem test_soft_reset : (after 1 { running 3 State.reset with hfault := true, pending := [.write 4 .word 0x80000003] }).phase =
      .idle ∧
    statusWord (after 1 { running 3 State.reset with hfault := true, pending := [.write 4 .word 0x80000003] }) = 0 ∧
    ctrlWord (after 1 { running 3 State.reset with hfault := true, pending := [.write 4 .word 0x80000003] }) = 0 := by
  decide +kernel
/-- R280: the block accepts accesses from the first edge that samples `rst_n` high. -/
theorem test_hard_reset : (after 3 { running 3 State.reset with
      pending := [.rstN false, .rstN true, .write 0x14 .word 5] }).ilen = 0 ∧
    (after 4 { running 3 State.reset with
      pending := [.rstN false, .rstN true, .clk false, .write 0x14 .word 5] }).ilen = 5 := by decide +kernel
/-- V-CTL-8: the interrupt with a running script: command, wait, acknowledge. -/
theorem test_script_irq :
    irq (after 3 (runScript [.wr32 .ctrl 1, .command .nop, .wait 1, .ack] State.reset)) = false ∧
    irq (after 5 (runScript [.wr32 .ctrl 1, .command .nop, .wait 1, .ack] State.reset)) = true ∧
    irq (after 6 (runScript [.wr32 .ctrl 1, .command .nop, .wait 1, .ack] State.reset)) = false := by decide +kernel
/-- R102. -/
theorem test_script_expand : ScriptLine.expand (.tplset 2 0x7A 0x14) = [.write 0x048 .word 0x80007A14] ∧
    ScriptLine.expand (.ldh [0x61]) = [.write 0x080 .byte 0x61, .write 0x018 .word 1] ∧
    ScriptLine.expand (.command (.movO2I 1)) = [.write 0x008 .word 0x0000010C] := by decide +kernel

/-! ## The memory -/

theorem test_memory_canonical : Memory.set (Memory.set (Memory.set [] 0x101 7) 0x100 6) 0x101 8 =
    [(0x100, 6), (0x101, 8)] := by decide

/-! ## Witnesses: the hypotheses of each statement, met together -/

/-- The reset state with HBUF and IBUF filled with one byte each, up to the lengths. -/
def filled (hl il : Nat) (h i : Byte) : State :=
  { State.reset with
    hlen := BitVec.ofNat 8 hl
    ilen := BitVec.ofNat 8 il
    mem := ((List.range' 0x080 hl).map fun a => (a, h)) ++ (List.range' 0x100 il).map fun a => (a, i) }

theorem get_run (b : Byte) (k : Nat) : ∀ n a, Memory.get ((List.range' a n).map fun x => (x, b)) k =
    if a ≤ k ∧ k < a + n then some b else none
  | 0, a => by rw [if_neg (by omega)]; rfl
  | n + 1, a => by
    have ih := get_run b k n (a + 1)
    simp only [List.range'_succ, List.map_cons, Memory.get, ih]
    split
    · rw [if_pos (by omega)]
    · split <;> split <;> first | rfl | omega

theorem get_append (m' : Memory) (k : Nat) : ∀ m : Memory, Memory.get (m ++ m') k = (Memory.get m k).or (Memory.get m' k)
  | [] => by simp [Memory.get]
  | (a, b) :: m => by
    simp only [List.cons_append, Memory.get, get_append m' k m]
    split <;> simp

theorem filled_input (hl il : Nat) (h i : Byte) (h1 : hl ≤ 83) (h2 : il ≤ 128) :
    inputString (filled hl il h i) = List.replicate il i := by
  have hn : (BitVec.ofNat 8 il).toNat = il := by simp; omega
  apply List.ext_getElem <;> simp [inputString, readBytes, filled, hn, readByte, get_append, get_run]
  intro k hk
  rw [if_neg (by simp only [ibufBase]; omega), if_pos hk]
  rfl

theorem filled_prefix (hl il : Nat) (h i : Byte) (h1 : hl ≤ 83) :
    prefixString (filled hl il h i) = List.replicate hl h := by
  have hn : (BitVec.ofNat 8 hl).toNat = hl := by simp; omega
  apply List.ext_getElem <;> simp [prefixString, readBytes, filled, hn, readByte, get_append, get_run]
  intro k hk
  rw [if_pos hk]
  rfl

theorem witness_DecodeOfEncode : (Instr.b58cEnc 255).wf = true ∧ (Instr.b32Enc .bech32m).wf = true ∧
    Instr.nop.wf = true := by decide

theorem witness_EncodeOfDecode : decodeWord 0x0000FF0C = .command (.movO2I 255) := by decide

theorem witness_DecodeFollowsOpcodeMap : (Row.mk 0xA "B32.CKSUM" .a1) ∈ rows ∧
    (Row.mk 0xA "B32.CKSUM" .a1).selects 0x10A = true := by decide

theorem witness_StepRunsDecodedCommand :
    (∃ s : State, s.phase = .run 3 false ∧ decodeWord 3 = .command .b58Enc ∧ s.pending = []) ∧
    (∃ s : State, s.phase = .run 3 false ∧ s.pending = .clk true :: [.clk true] ∧ s.inReset = false) ∧
    (∃ s : State, s.phase = .run 3 false ∧ s.pending = .clk false :: [.clk true] ∧ s.inReset = false) :=
  ⟨⟨running 3 State.reset, by decide⟩,
   ⟨{ running 3 State.reset with pending := [.clk true, .clk true] }, by decide⟩,
   ⟨{ running 3 State.reset with pending := [.clk false, .clk true] }, by decide⟩⟩

theorem witness_CmdWriteStartsCommand :
    (∃ s : State, s.inReset = false ∧ s.pending = .write 0x008 .word 7 :: [] ∧ s.phase = .idle) ∧
    (∃ s : State, s.inReset = false ∧ s.pending = .write 0x008 .word 7 :: [] ∧ s.phase = .run 3 true) :=
  ⟨⟨{ State.reset with pending := [.write 0x008 .word 7] }, by decide⟩,
   ⟨{ State.reset with pending := [.write 0x008 .word 7], phase := .run 3 true }, by decide⟩⟩

theorem witness_IllegalWordResult :
    ∃ s : State, s.inReset = false ∧ s.phase = .idle ∧ decodeWord 0x102 = .illegal .argNonZero ∧
      s.pending = .write 0x008 .word 0x102 :: .clk true :: [] :=
  ⟨{ State.reset with pending := [.write 0x008 .word 0x102, .clk true] }, by decide⟩

theorem witness_CommandErrorCodes :
    ∃ t, exec .b58cDec (withTemplates [] (load [] (text "1Wh4bh"))) = .next t ∧ t.err = .b58Prefix := by
  have h : (match exec .b58cDec (withTemplates [] (load [] (text "1Wh4bh"))) with
    | .next t => t.err
    | .fault _ | .refused _ => .ok) = .b58Prefix := by decide +kernel
  generalize exec .b58cDec (withTemplates [] (load [] (text "1Wh4bh"))) = o at h ⊢
  cases o with
  | next t => exact ⟨t, rfl, h⟩
  | fault f => cases h
  | refused r => cases h

theorem witness_MovO2IResult :
    (96 : Byte).toNat + (withOut (List.replicate 32 1) State.reset).olen.toNat ≤ 128 ∧
    128 < (97 : Byte).toNat + (withOut (List.replicate 32 1) State.reset).olen.toNat ∧
    (128 : Byte).toNat + State.reset.olen.toNat ≤ 128 := by decide

/-- B58EncResult: both sides of 93. -/
theorem witness_B58EncResult : (load [] (List.replicate 93 0xFF)).ilen.toNat ≤ 93 ∧
    93 < (load [] (List.replicate 94 0xFF)).ilen.toNat := by decide

theorem witness_B58DecResult : 128 < ({ State.reset with ilen := 129 } : State).ilen.toNat ∧
    ((filled 0 128 0 0x30).ilen.toNat ≤ 128 ∧ ∃ c ∈ inputString (filled 0 128 0 0x30), v58 c = none) ∧
    ((filled 0 128 0 0x31).ilen.toNat ≤ 128 ∧ ∀ c ∈ inputString (filled 0 128 0 0x31), v58 c ≠ none) := by
  rw [filled_input _ _ _ _ (by omega) (by omega), filled_input _ _ _ _ (by omega) (by omega)]
  refine ⟨by decide, ⟨by decide, 0x30, by simp, by decide⟩, by decide, fun c hc => ?_⟩
  rw [List.eq_of_mem_replicate hc]
  decide

/-- Hash256Result and Cksum4Result: both sides of 128. -/
theorem witness_Hash256Result_Cksum4Result : (load [] (List.replicate 128 0x61)).ilen.toNat ≤ 128 ∧
    128 < ({ State.reset with ilen := 129 } : State).ilen.toNat := by decide +kernel

/-- B58cEncResult and B32GroupResult: both sides of 80. -/
theorem witness_B58cEncResult_B32GroupResult : (load [] (List.replicate 80 0xFF)).ilen.toNat ≤ 80 ∧
    80 < (load [] (List.replicate 81 0xFF)).ilen.toNat := by decide

theorem witness_B58cDecResult_len : 128 < ({ State.reset with ilen := 129 } : State).ilen.toNat ∧
    (running 2 (withTemplates [] State.reset)).phase = .run 2 true := by decide

/-- A text of 128 characters outside the alphabet, and the empty text, decode to no image. -/
theorem witness_B58cDecResult_cklen :
    ((filled 0 128 0 0x30).ilen.toNat ≤ 128 ∧
      ∀ (ver : Byte) (p : List Byte), b58dec (inputString (filled 0 128 0 0x30)) ≠
        some (ver :: p ++ (h256 (ver :: p)).take 4)) ∧
    (∀ (ver : Byte) (p : List Byte), b58dec (inputString State.reset) ≠
      some (ver :: p ++ (h256 (ver :: p)).take 4)) := by
  have h1 : b58dec (inputString (filled 0 128 0 0x30)) = none := by
    rw [filled_input _ _ _ _ (by omega) (by omega)]
    decide +kernel
  have h2 : b58dec (inputString State.reset) = some [] := by decide +kernel
  exact ⟨⟨by decide, fun ver p => by rw [h1]; simp⟩, fun ver p => by rw [h2]; simp⟩

/-- "1Wh4bh" denotes version 0 and the empty payload (V-B58C-4). -/
theorem witness_B58cDecResult_image :
    b58dec (inputString (load [] (text "1Wh4bh"))) = some ((0 : Byte) :: [] ++ (h256 [0]).take 4) ∧
    (load [] (text "1Wh4bh")).ilen.toNat ≤ 128 ∧ sampledTplchk (load [] (text "1Wh4bh")) = false := by
  decide +kernel

/-- The three outcomes of the template test for version 0 and length 0, the last at the last index. -/
theorem witness_B58cDecResult_templates :
    (sampledTplchk (withTemplates [(0, 0, 5)] State.reset) = true ∧
      ∀ i : Fin 16, ¬ (((withTemplates [(0, 0, 5)] State.reset).tpl.get i).valid = true ∧
        ((withTemplates [(0, 0, 5)] State.reset).tpl.get i).version = 0)) ∧
    ((∃ i : Fin 16, ((withTemplates [(0, 7, 0)] State.reset).tpl.get i).valid = true ∧
        ((withTemplates [(0, 7, 0)] State.reset).tpl.get i).version = 0) ∧
      ∀ i : Fin 16, ((withTemplates [(0, 7, 0)] State.reset).tpl.get i).valid = true →
        ((withTemplates [(0, 7, 0)] State.reset).tpl.get i).version = 0 →
        ((withTemplates [(0, 7, 0)] State.reset).tpl.get i).payLen.toNat ≠ ([] : List Byte).length) ∧
    (((withTemplates [(3, 7, 0), (15, 0, 0)] State.reset).tpl.get 15).valid = true ∧
      ((withTemplates [(3, 7, 0), (15, 0, 0)] State.reset).tpl.get 15).version = 0 ∧
      ((withTemplates [(3, 7, 0), (15, 0, 0)] State.reset).tpl.get 15).payLen.toNat = ([] : List Byte).length ∧
      ∀ j : Fin 16, j < 15 → ¬ (((withTemplates [(3, 7, 0), (15, 0, 0)] State.reset).tpl.get j).valid = true ∧
        ((withTemplates [(3, 7, 0), (15, 0, 0)] State.reset).tpl.get j).version = 0 ∧
        ((withTemplates [(3, 7, 0), (15, 0, 0)] State.reset).tpl.get j).payLen.toNat = ([] : List Byte).length)) := by
  decide +kernel

theorem witness_B32UngroupResult : 128 < ({ State.reset with ilen := 129 } : State).ilen.toNat ∧
    ((filled 0 128 0 0x20).ilen.toNat ≤ 128 ∧ ∃ b ∈ inputString (filled 0 128 0 0x20), 31 < b.toNat) ∧
    ((∀ b ∈ inputString (load [] [0x1F]), b.toNat ≤ 31) ∧
      ungroup ((inputString (load [] [0x1F])).map fun b => b.setWidth 5) = none) ∧
    ((filled 0 128 0 0).ilen.toNat ≤ 128 ∧ (∀ b ∈ inputString (filled 0 128 0 0), b.toNat ≤ 31) ∧
      ungroup ((inputString (filled 0 128 0 0)).map fun b => b.setWidth 5) = some (List.replicate 80 0)) := by
  rw [filled_input _ _ _ _ (by omega) (by omega), filled_input _ _ _ _ (by omega) (by omega)]
  refine ⟨by decide, ⟨by decide, 0x20, by simp, by decide⟩, by decide +kernel, by decide, fun c hc => ?_,
    by decide +kernel⟩
  rw [List.eq_of_mem_replicate hc]
  decide

/-- B32PolymodResult and B32CksumResult: ILEN 129; HLEN 0 and 84; a bad character; a byte above 31; and both ends
of HLEN with good operands. -/
theorem witness_B32PolymodResult_B32CksumResult :
    128 < ({ State.reset with ilen := 129 } : State).ilen.toNat ∧
    (State.reset.ilen.toNat ≤ 128 ∧ ¬ (1 ≤ State.reset.hlen.toNat ∧ State.reset.hlen.toNat ≤ 83)) ∧
    ¬ (1 ≤ ({ State.reset with hlen := 84 } : State).hlen.toNat ∧ ({ State.reset with hlen := 84 } : State).hlen.toNat ≤ 83) ∧
    (∃ c ∈ prefixString (load (text "rRic") []), ¬ (33 ≤ c.toNat ∧ c.toNat ≤ 126 ∧ ¬ (0x41 ≤ c.toNat ∧ c.toNat ≤ 0x5A))) ∧
    ((∀ c ∈ prefixString (load (text "!") [0x20]), 33 ≤ c.toNat ∧ c.toNat ≤ 126 ∧ ¬ (0x41 ≤ c.toNat ∧ c.toNat ≤ 0x5A)) ∧
      ∃ b ∈ inputString (load (text "!") [0x20]), 31 < b.toNat) ∧
    ((filled 83 128 0x7E 31).ilen.toNat ≤ 128 ∧ 1 ≤ (filled 83 128 0x7E 31).hlen.toNat ∧
      (filled 83 128 0x7E 31).hlen.toNat ≤ 83 ∧
      (∀ c ∈ prefixString (filled 83 128 0x7E 31), 33 ≤ c.toNat ∧ c.toNat ≤ 126 ∧ ¬ (0x41 ≤ c.toNat ∧ c.toNat ≤ 0x5A)) ∧
      ∀ b ∈ inputString (filled 83 128 0x7E 31), b.toNat ≤ 31) := by
  rw [filled_input _ _ _ _ (by omega) (by omega), filled_prefix _ _ _ _ (by omega)]
  refine ⟨by decide, by decide, by decide, by decide +kernel, by decide +kernel, by decide, by decide, by decide,
    fun c hc => ?_, fun c hc => ?_⟩
  · rw [List.eq_of_mem_replicate hc]
    decide
  · rw [List.eq_of_mem_replicate hc]
    decide

/-- B32EncResult: beside the cases above, both sides of 90 characters (V-B32-12, V-B32-13), and a bad character
and a byte above 31 in a text short enough. -/
theorem witness_B32EncResult :
    90 < (load (List.replicate 83 0x61) [0]).hlen.toNat + 1 + (load (List.replicate 83 0x61) [0]).ilen.toNat + 6 ∧
    (load (List.replicate 83 0x61) []).hlen.toNat + 1 + (load (List.replicate 83 0x61) []).ilen.toNat + 6 ≤ 90 ∧
    (load (text "rRic") []).hlen.toNat + 1 + (load (text "rRic") []).ilen.toNat + 6 ≤ 90 ∧
    (load (text "!") [0x20]).hlen.toNat + 1 + (load (text "!") [0x20]).ilen.toNat + 6 ≤ 90 := by decide

theorem witness_B58Texts : b58dec (text "5Q") = some [0xFF] ∧ v58 0x30 = none := by decide

theorem witness_B58LengthBounds : (List.replicate 93 (0xFF : Byte)).length ≤ 93 ∧
    (List.replicate 85 (0xFF : Byte)).length ≤ 85 ∧ b58dec (text "1") = some [0] := by decide

/-- Sha256Padding: the longest message of one block has no zero byte, the next one has 63. -/
theorem witness_Sha256Padding : (55 + 1 + 0) % 64 = 56 ∧ (56 + 1 + 63) % 64 = 56 ∧
    (List.replicate 128 (0x61 : Byte)).length < 2 ^ 61 := by simp

theorem witness_RegroupAccumulatorForm : ([0, 0, 0, 0, 0, 0] : List Symbol).length % 8 ∈ [1, 3, 6] := by decide

theorem witness_PackedTextShape :
    ∀ c ∈ text "a1", 33 ≤ c.toNat ∧ c.toNat ≤ 126 ∧ ¬ (0x41 ≤ c.toNat ∧ c.toNat ≤ 0x5A) := by decide

theorem witness_Base58CheckRoundTrip : (load [] (List.replicate 80 0xFF)).ilen.toNat ≤ 80 ∧
    (load [] (List.replicate 80 0xFF)).tplchk = false := by decide

theorem witness_Base58CheckFromParts : (filled 0 80 0 0xFF).ilen.toNat ≤ 80 ∧
    inputString (filled 0 81 0 0xFF) = 0xFF :: inputString (filled 0 80 0 0xFF) := by
  rw [filled_input _ _ _ _ (by omega) (by omega), filled_input _ _ _ _ (by omega) (by omega)]
  exact ⟨by decide, rfl⟩

theorem witness_CommandsKeepInputs : (∃ t, exec .hash256 State.reset = .next t) ∧
    (∃ t, exec (.movO2I 128) State.reset = .next t) ∧ (∃ t, exec .nop State.reset = .next t) :=
  ⟨⟨_, rfl⟩, ⟨_, rfl⟩, ⟨_, rfl⟩⟩

/-- Two states that agree on the input string "a" and TPLCHK = 0, and differ in HLEN, the prefix, OLEN, OBUF, the
byte beyond ILEN, the template table, CTRL.IE and ERR: the commands that read the input alone, and B58C.DEC. -/
theorem witness_ResultsDependOnNamedInputsOnly_input :
    (∀ i ∈ [Instr.nop, .b58cEnc 7, .b58Enc, .b58Dec, .hash256, .cksum4, .b32Group, .b32Ungroup, .b58cDec],
      SameNamedOperands i (load [] [0x61])
        { withOut [9] (withTemplates [(1, 2, 3)] (load [0x62] [0x61, 5])) with
          ilen := 1, tplchk := false, ie := true, err := .len }) ∧
    (∃ t, exec .hash256 (load [] [0x61]) = .next t) ∧
    (∃ t, exec .hash256 { withOut [9] (withTemplates [(1, 2, 3)] (load [0x62] [0x61, 5])) with
      ilen := 1, tplchk := false, ie := true, err := .len } = .next t) := by
  refine ⟨fun i hi => ?_, ⟨_, rfl⟩, ⟨_, rfl⟩⟩
  simp only [List.mem_cons, List.not_mem_nil, or_false] at hi
  rcases hi with rfl | rfl | rfl | rfl | rfl | rfl | rfl | rfl | rfl <;>
    simp only [SameNamedOperands, SameInput, SameTemplates, inputBound] <;> decide +kernel

/-- A byte does not depend on HLEN or OLEN. -/
theorem readByte_lengths (s : State) (h o : Byte) (a : Nat) :
    readByte s a = readByte { s with hlen := h, olen := o } a := rfl

/-- B58C.DEC with TPLCHK = 1 and equal tables; above its bound of 80 B58C.ENC needs no byte to agree. -/
theorem witness_ResultsDependOnNamedInputsOnly_bounds :
    SameNamedOperands .b58cDec (withTemplates [(1, 2, 3)] (load [] [0x61]))
      (withOut [9] (withTemplates [(1, 2, 3)] (load [0x62] [0x61]))) ∧
    SameNamedOperands (.b58cEnc 0) (filled 0 81 0 1) (filled 0 81 0 2) ∧
    SameNamedOperands .b58Enc (filled 0 93 0 1) { filled 0 93 0 1 with hlen := 5, olen := 9 } := by
  refine ⟨?_, ⟨rfl, fun h => absurd h (by decide)⟩, ⟨rfl, fun _ _ _ => readByte_lengths _ 5 9 _⟩⟩
  simp only [SameNamedOperands, SameInput, SameTemplates, inputBound]
  decide +kernel

/-- The Bech32 checksum commands at both ends of HLEN, and MOV.O2I on both sides of its length test. -/
theorem witness_ResultsDependOnNamedInputsOnly_prefix_output :
    SameNamedOperands .b32Polymod (load (text "a") [1]) { withOut [9] (load (text "a") [1]) with err := .len } ∧
    SameNamedOperands (.b32Cksum .bech32) (filled 83 128 0x7E 31) { filled 83 128 0x7E 31 with hlen := 83, olen := 9 } ∧
    SameNamedOperands (.b32Enc .bech32m) (load [] [1]) { load [] [1] with ie := true } ∧
    SameNamedOperands (.movO2I 126) (withOut [7, 8] (load [] [])) (withOut [7, 8] (load [1] [2])) ∧
    SameNamedOperands (.movO2I 127) (withOut [7, 8] (load [] [])) (withOut [9, 9] (load [] [])) ∧
    (∃ t, exec (.movO2I 126) (withOut [7, 8] (load [] [])) = .next t ∧ t.err = .ok) := by
  refine ⟨?_, ⟨⟨rfl, fun _ _ _ => readByte_lengths _ 83 9 _⟩, rfl, fun _ _ _ _ => readByte_lengths _ 83 9 _⟩, ⟨⟨rfl, fun _ _ _ => rfl⟩, rfl, fun _ _ _ _ => rfl⟩,
    ?_, ⟨rfl, fun h => absurd h (by decide)⟩, ⟨_, rfl, by decide⟩⟩
  · simp only [SameNamedOperands, SameInput, SamePrefix, inputBound]
    decide +kernel
  · simp only [SameNamedOperands, SameOutput]
    decide +kernel

theorem witness_ObufBeyondOlenIsFree : writesResults .cksum4 = true ∧
    ∃ t, exec .cksum4 State.reset = .next t ∧ t.olen.toNat ≤ 127 := ⟨rfl, _, rfl, by decide +kernel⟩

/-- The ends of every range of RefusedAccesses, and its read-only places. -/
theorem witness_RefusedAccesses :
    (noPlace 0x006 .word ∧ noPlace 0x028 .word ∧ noPlace 0x03C .word ∧ noPlace 0x080 .word ∧ noPlace 0x1FC .word) ∧
    (noPlace 0x000 .byte ∧ noPlace 0x07F .byte ∧ noPlace 0x0D3 .byte ∧ noPlace 0x0FF .byte) ∧
    (¬ noPlace 0x024 .word ∧ ¬ noPlace 0x040 .word ∧ ¬ noPlace 0x07C .word ∧ ¬ noPlace 0x080 .byte ∧
      ¬ noPlace 0x0D2 .byte ∧ ¬ noPlace 0x100 .byte ∧ ¬ noPlace 0x180 .byte) ∧
    (0x024 : Offset).toNat ∈ [0x000, 0x010, 0x01C, 0x020, 0x024] ∧ 0x180 ≤ (0x180 : Offset).toNat ∧
    0x180 ≤ (0x1FF : Offset).toNat ∧
    (∃ s : State, s.inReset = false ∧ s.pending = .read 0x028 .word :: []) ∧
    (∃ s : State, s.inReset = false ∧ s.pending = .write 0x180 .byte 5 :: []) := by
  refine ⟨by unfold noPlace; decide, by unfold noPlace; decide, by unfold noPlace; decide, by decide, by decide,
    by decide, ⟨{ State.reset with pending := [.read 0x028 .word] }, by decide⟩,
    ⟨{ State.reset with pending := [.write 0x180 .byte 5] }, by decide⟩⟩

theorem witness_BusyAccesses :
    (∃ s : State, s.inReset = false ∧ s.phase = .run 3 false ∧ s.pending = .read 0x00C .word :: []) ∧
    (∃ s : State, s.inReset = false ∧ s.phase = .run 3 false ∧ s.pending = .write 0x004 .word 1 :: []) :=
  ⟨⟨{ running 3 State.reset with pending := [.read 0x00C .word] }, by decide⟩,
   ⟨{ running 3 State.reset with pending := [.write 0x004 .word 1] }, by decide⟩⟩

/-- ReadsHaveNoSideEffect: an idle block, and the ends of the three buffers. -/
theorem witness_ReadsHaveNoSideEffect :
    (∃ s : State, s.inReset = false ∧ s.phase = .idle ∧ s.pending = .read 0x1FF .byte :: []) ∧
    ∀ off ∈ [(0x080 : Offset), 0x0D2, 0x100, 0x17F, 0x180, 0x1FF],
      0x080 ≤ off.toNat ∧ off.toNat ≤ 0x0D2 ∨ 0x100 ≤ off.toNat ∧ off.toNat ≤ 0x1FF :=
  ⟨⟨{ State.reset with pending := [.read 0x1FF .byte] }, by decide⟩, by decide⟩

/-- RegisterReadValues, RegisterWriteEffects and BufferWriteThenRead, with the ends of the buffers. -/
theorem witness_RegisterAndBufferAccesses : State.reset.inReset = false ∧ State.reset.phase = .idle ∧
    (0x00000003 : Word).getLsbD 31 = false ∧
    (0x080 ≤ (0x080 : Offset).toNat ∧ (0x0D2 : Offset).toNat ≤ 0x0D2) ∧
    (0x100 ≤ (0x100 : Offset).toNat ∧ (0x17F : Offset).toNat ≤ 0x17F) := by decide

/-- SoftReset, with a command running. -/
theorem witness_SoftReset : ∃ s : State, s.inReset = false ∧ s.phase = .run 3 false ∧
    (0x80000003 : Word).getLsbD 31 = true ∧ s.pending = .write 0x004 .word 0x80000003 :: [] :=
  ⟨{ running 3 State.reset with pending := [.write 0x004 .word 0x80000003] }, by decide⟩

theorem witness_HardReset :
    (∃ s : State, s.phase = .run 3 false ∧ s.pending = .rstN false :: []) ∧
    (∃ s : State, s.inReset = true ∧ s.pending = .write 0x014 .word 5 :: []) ∧
    (∃ s : State, s.inReset = true ∧ s.pending = .read 0x014 .word :: []) ∧
    (∃ s : State, s.inReset = true ∧ s.phase = .idle ∧ s.pending = .clk true :: []) :=
  ⟨⟨{ running 3 State.reset with pending := [.rstN false] }, by decide⟩,
   ⟨{ State.reset with inReset := true, pending := [.write 0x014 .word 5] }, by decide⟩,
   ⟨{ State.reset with inReset := true, pending := [.read 0x014 .word] }, by decide⟩,
   ⟨{ State.reset with inReset := true, pending := [.clk true] }, by decide⟩⟩

theorem witness_HfaultIsSticky : ∃ s t : State, s.hfault = true ∧ s.pending = .write 0x00C .word 0xFFFFFFFF :: [] ∧
    step s = .next t :=
  ⟨{ State.reset with hfault := true, pending := [.write 0x00C .word 0xFFFFFFFF] }, _, rfl, rfl, rfl⟩

theorem witness_InterruptLevel :
    (∃ t, exec .nop State.reset = .next t) ∧
    (∃ s t : State, s.inReset = false ∧ s.phase = .idle ∧ (2 : Word).getLsbD 1 = true ∧ irq s = true ∧
      s.pending = .write 0x00C .word 2 :: [] ∧ step s = .next t) ∧
    (∃ s t : State, s.inReset = false ∧ (1 : Word).getLsbD 31 = false ∧ s.done = true ∧
      s.pending = .write 0x004 .word 1 :: [] ∧ step s = .next t) :=
  ⟨⟨_, rfl⟩,
   ⟨{ State.reset with done := true, ie := true, pending := [.write 0x00C .word 2] }, _, rfl, rfl, by decide, rfl,
    rfl, rfl⟩,
   ⟨{ State.reset with done := true, pending := [.write 0x004 .word 1] }, _, rfl, by decide, rfl, rfl, rfl⟩⟩

/-- CtrlWriteKeepsRunningCommand and AccessKeepsRunningCommand. -/
theorem witness_RunningCommandKept : (running 2 State.reset).inReset = false ∧
    (running 2 State.reset).phase = .run 2 false ∧ (0 : Word).getLsbD 31 = false ∧
    ¬ ((0x100 : Offset) = 0x004 ∧ Size.byte = .word) := by decide

theorem witness_RunningCommandCompletes : ∃ s : State, s.inReset = false ∧ s.phase = .run 3 false ∧
    s.pending.length = 3 ∧ ∀ e ∈ s.pending, resets e = false :=
  ⟨{ running 3 State.reset with pending := [.read 0 .word, .rstN true, .write 0x004 .word 3] }, by decide⟩

/-- The invariants hold of a state that is not the reset state: an output of two bytes, a template hit. -/
theorem witness_Invariants : ∃ s : State, MemInv s ∧ ObufInv s ∧ LifecycleInv s ∧ ResetInv s ∧ Res0Inv s ∧
    (∃ t, step s = .next t) ∧ s.olen = 2 ∧ s.done = true := by
  refine ⟨{ withOut [7, 8] (load (text "a") [1]) with done := true, res0 := ⟨0x7A, 123, 5, true⟩ }, ?_, ?_, ?_, ?_,
    ?_, ⟨_, rfl⟩, by decide, rfl⟩
  · unfold MemInv Memory.wf; decide +kernel
  · unfold ObufInv; decide +kernel
  · exact ⟨fun w t h => (by cases h), fun _ => by decide, fun h => (by cases h)⟩
  · exact ⟨fun h => (by cases h), fun h => (by cases h)⟩
  · unfold Res0Inv; decide

/-- `LifecycleInv` with a command running, and `ResetInv` in reset. -/
theorem witness_Invariants_run : LifecycleInv (running 3 State.reset) ∧
    ResetInv { State.reset with rstN := false, inReset := true, outDraw := 4 } := by
  refine ⟨⟨fun w t h => ?_, fun h => (by cases h), fun h => (by cases h)⟩, fun _ => rfl, fun _ => rfl⟩
  cases h
  exact ⟨rfl, rfl, rfl⟩

end Sys2Proof.Tests
end

section
/-! PROOFS. A command's result is a function of the command and the operands its own rule names (R9, R39, R231).
The meaning of a command is a chain of checks before a completion; on states that agree on the named operands
every check goes the same way, so both runs complete alike. -/

namespace Sys2Proof.Machine

/-- Two runs, from `s` and from `s'`, complete alike: both succeed with the same output string and the same values
of RES0 and RESID, or both fail with the same code and RES0. -/
inductive SameEnding (s s' : State) : (o o' : Host.Outcome State Fault Refusal) → Prop where
  | success (bs : List Byte) (r0 : Res0) (rid : Residue) :
    SameEnding s s' (.next (succeed bs r0 rid s)) (.next (succeed bs r0 rid s'))
  | failure (e : ErrCode) (r0 : Res0) :
    SameEnding s s' (.next (failKeeping e r0 s)) (.next (failKeeping e r0 s'))

/-- The states agree on all that a command writes as its result (R31, R32, R38). -/
def SameResults (t t' : State) : Prop :=
  t.err = t'.err ∧ t.fail = t'.fail ∧ t.olen = t'.olen ∧ t.res0 = t'.res0 ∧ t.resid = t'.resid ∧
    ∀ k, k < t.olen.toNat → readByte t (0x180 + k) = readByte t' (0x180 + k)

/-- After a success the bytes below OLEN are the output string's. -/
theorem readByte_succeed_inside (bs : List Byte) (r0 : Res0) (rid : Residue) (s : State) (k : Nat)
    (hk : k < bs.length) : readByte (succeed bs r0 rid s) (0x180 + k) = bs[k] := by
  rw [readByte_succeed]
  exact readByte_out_inside s bs k hk

namespace SameEnding

variable {s s' : State} {o o' : Host.Outcome State Fault Refusal}

/-- Runs that complete alike leave the same results. -/
theorem sameResults {t t' : State} (h : SameEnding s s' (.next t) (.next t')) : SameResults t t' := by
  cases h with
  | success bs r0 rid =>
    refine ⟨rfl, rfl, rfl, rfl, rfl, fun k hk => ?_⟩
    have hkl : k < bs.length := Nat.lt_of_lt_of_le hk (by simpa using Nat.mod_le bs.length 256)
    rw [readByte_succeed_inside _ _ _ _ _ hkl, readByte_succeed_inside _ _ _ _ _ hkl]
  | failure e r0 => exact ⟨rfl, rfl, rfl, rfl, rfl, fun k hk => absurd hk (Nat.not_lt_zero k)⟩

/-- A check whose condition is the same in both runs. -/
theorem check {c : Prop} [Decidable c] (e : ErrCode) (h : SameEnding s s' o o') :
    SameEnding s s' (if c then .next (failWith e s) else o) (if c then .next (failWith e s') else o') := by
  split
  · exact .failure e noRes0
  · exact h

/-- The length check of a command, and a body that needs the input string only once the check has passed (R39). -/
theorem lengthCheck {bound : Nat} (hin : SameInput bound s s')
    (h : inputString s = inputString s' → SameEnding s s' o o') :
    SameEnding s s' (if bound < s.ilen.toNat then .next (failWith .len s) else o)
      (if bound < s'.ilen.toNat then .next (failWith .len s') else o') := by
  rw [← hin.1]
  split
  · exact .failure .len noRes0
  · exact h (inputString_congr hin (Nat.le_of_not_lt ‹_›))

/-- The check of HLEN, and a body that needs the string H only once the check has passed (R39, R208). -/
theorem prefixLengthCheck (hpre : SamePrefix s s') (h : prefixString s = prefixString s' → SameEnding s s' o o') :
    SameEnding s s' (if badPrefixLength s then .next (failWith .hrp s) else o)
      (if badPrefixLength s' then .next (failWith .hrp s') else o') := by
  rw [← badPrefixLength_congr hpre]
  split
  · exact .failure .hrp noRes0
  · exact h (prefixString_congr hpre (Bool.eq_false_iff.2 ‹_›))

end SameEnding

/-! ### The commands that write results -/

section
variable {s s' : State}

theorem execB58cEnc_sameEnding (ver : Byte) (hin : SameInput 80 s s') :
    SameEnding s s' (execB58cEnc ver s) (execB58cEnc ver s') :=
  .lengthCheck hin fun hI => by rw [hI]; exact .success ..

theorem finishB58cDec_sameEnding (ver : Byte) (p : List Byte) (r : TemplateResult) :
    SameEnding s s' (.next (finishB58cDec ver p s r)) (.next (finishB58cDec ver p s' r)) := by
  cases r with
  | notTested => exact .success ..
  | unknownVersion => exact .failure ..
  | wrongLength => exact .failure ..
  | hit idx => exact .success ..

theorem execB58cDec_sameEnding (hin : SameInput 128 s s') (htpl : SameTemplates s s') :
    SameEnding s s' (execB58cDec s) (execB58cDec s') := by
  refine .lengthCheck hin fun hI => ?_
  rw [hI]
  cases b58cOpen (inputString s') with
  | none => exact .failure ..
  | some image =>
    obtain ⟨ver, p⟩ := image
    simp only [templateTest_congr htpl]
    exact finishB58cDec_sameEnding ..

theorem execB58Enc_sameEnding (hin : SameInput 93 s s') : SameEnding s s' (execB58Enc s) (execB58Enc s') :=
  .lengthCheck hin fun hI => by rw [hI]; exact .success ..

theorem execB58Dec_sameEnding (hin : SameInput 128 s s') : SameEnding s s' (execB58Dec s) (execB58Dec s') := by
  refine .lengthCheck hin fun hI => ?_
  rw [hI]
  cases b58dec (inputString s') with
  | none => exact .failure ..
  | some b => exact .success ..

theorem execHash256_sameEnding (hin : SameInput 128 s s') : SameEnding s s' (execHash256 s) (execHash256 s') :=
  .lengthCheck hin fun hI => by rw [hI]; exact .success ..

theorem execCksum4_sameEnding (hin : SameInput 128 s s') : SameEnding s s' (execCksum4 s) (execCksum4 s') :=
  .lengthCheck hin fun hI => by rw [hI]; exact .success ..

theorem execB32Group_sameEnding (hin : SameInput 80 s s') : SameEnding s s' (execB32Group s) (execB32Group s') :=
  .lengthCheck hin fun hI => by rw [hI]; exact .success ..

theorem execB32Ungroup_sameEnding (hin : SameInput 128 s s') :
    SameEnding s s' (execB32Ungroup s) (execB32Ungroup s') := by
  refine .lengthCheck hin fun hI => ?_
  rw [hI]
  refine .check .value ?_
  cases ungroup (symbolsOf (inputString s')) with
  | none => exact .failure ..
  | some b => exact .success ..

theorem execB32Polymod_sameEnding (hin : SameInput 128 s s') (hpre : SamePrefix s s') :
    SameEnding s s' (execB32Polymod s) (execB32Polymod s') := by
  refine .lengthCheck hin fun hI => .prefixLengthCheck hpre fun hH => ?_
  rw [hI, hH]
  exact .check .hrp (.check .value (.success ..))

theorem execB32Cksum_sameEnding (var : Variant) (hin : SameInput 128 s s') (hpre : SamePrefix s s') :
    SameEnding s s' (execB32Cksum var s) (execB32Cksum var s') := by
  refine .lengthCheck hin fun hI => .prefixLengthCheck hpre fun hH => ?_
  rw [hI, hH]
  exact .check .hrp (.check .value (.success ..))

theorem execB32Enc_sameEnding (var : Variant) (hin : SameInput 128 s s') (hpre : SamePrefix s s') :
    SameEnding s s' (execB32Enc var s) (execB32Enc var s') := by
  refine .lengthCheck hin fun hI => .prefixLengthCheck hpre fun hH => ?_
  rw [hI, hH, hin.1, hpre.1]
  exact .check .b32TooLong (.check .hrp (.check .value (.success ..)))

/-- Every command but NOP and MOV.O2I completes alike from states that agree on its named operands. -/
theorem exec_sameEnding {i : Instr} (hw : writesResults i = true) (hs : SameNamedOperands i s s') :
    SameEnding s s' (exec i s) (exec i s') := by
  cases i with
  | nop => exact absurd hw (by decide)
  | b58cEnc ver => exact execB58cEnc_sameEnding ver hs
  | b58cDec => exact execB58cDec_sameEnding hs.1 hs.2
  | b58Enc => exact execB58Enc_sameEnding hs
  | b58Dec => exact execB58Dec_sameEnding hs
  | hash256 => exact execHash256_sameEnding hs
  | cksum4 => exact execCksum4_sameEnding hs
  | b32Group => exact execB32Group_sameEnding hs
  | b32Ungroup => exact execB32Ungroup_sameEnding hs
  | b32Polymod => exact execB32Polymod_sameEnding hs.1 hs.2
  | b32Cksum var => exact execB32Cksum_sameEnding var hs.1 hs.2
  | b32Enc var => exact execB32Enc_sameEnding var hs.1 hs.2
  | movO2I off => cases hw

/-! ### MOV.O2I -/

/-- A successful MOV.O2I leaves the string it copied from `IBUF[OFF]` on (R236). -/
theorem readByte_movO2I_inside (off n : Byte) (bs : List Byte) (s : State) (k : Nat) (hk : k < bs.length) :
    readByte (complete .ok { writeBytes (ibufBase + off.toNat) bs s with ilen := n }) (0x100 + off.toNat + k) =
      bs[k] := by
  rw [readByte_complete]
  exact readByte_writeBytes_inside s _ bs k hk

/-- MOV.O2I from states that agree on OLEN and, if the length test passes, on the output bytes (R236): the same
code; on success the same ILEN and bytes, on failure each run keeps its ILEN. -/
theorem execMovO2I_sameResult {off : Byte} {t t' : State} (hs : SameOutput off s s')
    (h : execMovO2I off s = .next t) (h' : execMovO2I off s' = .next t') :
    t.err = t'.err ∧ t.fail = t'.fail ∧ (s.ilen = s'.ilen → t.ilen = t'.ilen) ∧
      (t.err = .ok → t.ilen = t'.ilen ∧ ∀ k, k < s.olen.toNat →
        readByte t (0x100 + off.toNat + k) = readByte t' (0x100 + off.toNat + k)) := by
  unfold execMovO2I at h h'
  rw [← hs.1] at h'
  by_cases hl : 128 < off.toNat + s.olen.toNat
  · rw [if_pos hl] at h h'
    cases h
    cases h'
    exact ⟨rfl, rfl, id, fun he => by cases he⟩
  · rw [if_neg hl] at h h'
    rw [← outputString_congr hs (Nat.le_of_not_lt hl)] at h'
    cases h
    cases h'
    refine ⟨rfl, rfl, fun _ => rfl, fun _ => ⟨rfl, fun k hk => ?_⟩⟩
    have hk' : k < (outputString s).length := by simpa using hk
    rw [readByte_movO2I_inside _ _ _ _ _ hk', readByte_movO2I_inside _ _ _ _ _ hk']

end

/-- Settles O39: by `exec_sameEnding` for the commands that write results, by `execMovO2I_sameResult` for MOV.O2I;
NOP always ends with OK. -/
theorem resultsDependOnNamedInputsOnly : Obligations.ResultsDependOnNamedInputsOnly := by
  intro i s s' t t' hs h h'
  cases hw : writesResults i with
  | true =>
    have hend := exec_sameEnding hw hs
    rw [h, h'] at hend
    obtain ⟨herr, hfail, hresults⟩ := hend.sameResults
    exact ⟨herr, hfail, fun _ => hresults, fun off hi => by subst hi; cases hw⟩
  | false =>
    cases i with
    | nop =>
      cases h
      cases h'
      exact ⟨rfl, rfl, fun hw => (by cases hw), fun off hi => (by cases hi)⟩
    | movO2I off =>
      obtain ⟨herr, hfail, hmov⟩ := execMovO2I_sameResult hs h h'
      exact ⟨herr, hfail, fun hw => (by cases hw), fun off' hi => (by cases hi; exact hmov)⟩
    | _ => cases hw

end Sys2Proof.Machine
end

section
/-! PROOFS. The bounds on results (R31, R32, R123, R194, R221): every string a command puts into OBUF has at most 128
bytes, and every payload a decode reports at most 123. -/

namespace Sys2Proof.Machine

/-! ### Numbers in a base: leading zero digits do not count -/

/-- A numeral in base `B` is below `B` to the number of its digits. -/
theorem foldl_digits_lt {α : Type} (B : Nat) (f : α → Nat) (hf : ∀ x, f x < B) (t : List α) :
    t.foldl (fun n x => B * n + f x) 0 < B ^ t.length := by
  induction t using List.reverseRecOn with
  | nil => simp
  | append_singleton t x ih =>
    simp only [List.foldl_append, List.foldl_cons, List.foldl_nil, List.length_append, List.length_singleton]
    calc B * t.foldl (fun n x => B * n + f x) 0 + f x
        < B * (t.foldl (fun n x => B * n + f x) 0 + 1) := by have := hf x; rw [Nat.mul_add]; omega
      _ ≤ B * B ^ t.length := Nat.mul_le_mul_left B ih
      _ = B ^ (t.length + 1) := by rw [Nat.pow_succ, Nat.mul_comm]

/-- The leading digits that `p` picks out, all of value 0, do not count. -/
theorem foldl_digits_lt_of_leading {α : Type} (B : Nat) (f : α → Nat) (p : α → Bool) (hf : ∀ x, f x < B)
    (hp : ∀ x, p x = true → f x = 0) (t : List α) :
    t.foldl (fun n x => B * n + f x) 0 < B ^ (t.length - (t.takeWhile p).length) := by
  induction t with
  | nil => simp
  | cons x t ih =>
    cases hx : p x with
    | true => simpa [List.takeWhile_cons, hx, hp x hx] using ih
    | false => simpa [List.takeWhile_cons, hx] using foldl_digits_lt B f hf (x :: t)

theorem beNat_lt_leadingCount (s : List Byte) : beNat s < 256 ^ (s.length - leadingCount 0 s) :=
  foldl_digits_lt_of_leading 256 BitVec.toNat (· == 0) (fun b => b.isLt) (fun b hb => by simp_all) s

theorem digitOf_lt (c : Byte) : digitOf c < 58 := by
  unfold digitOf
  cases h : v58 c with
  | none => decide
  | some d => exact (a58_v58 h).1

theorem valueOf58_lt_leadingCount (t : List Byte) :
    valueOf58 t < 58 ^ (t.length - leadingCount (ascii '1') t) :=
  foldl_digits_lt_of_leading 58 digitOf (· == ascii '1') digitOf_lt
    (fun c hc => by rw [eq_of_beq hc, digitOf, v58_one]; rfl) t

theorem leadingCount_le (x : Byte) (s : List Byte) : leadingCount x s ≤ s.length :=
  (List.takeWhile_sublist _).length_le

/-- The loop of R121 makes at most `k` digits of a number below `58 ^ k`, whatever its turns are bounded by. -/
theorem digits58_length_le (fuel : Nat) {k n : Nat} (h : n < 58 ^ k) : (digits58 fuel n []).length ≤ k := by
  induction fuel generalizing k n with
  | zero => simp [digits58]
  | succ fuel ih =>
    rw [digits58]
    split
    · simp
    · cases k with
      | zero => simp at h; omega
      | succ k =>
        have hk : n / 58 < 58 ^ k := Nat.div_lt_of_lt_mul (by rwa [Nat.pow_succ, Nat.mul_comm] at h)
        rw [digits58_append, List.length_append, List.length_singleton]
        exact Nat.succ_le_succ (ih hk)

/-- The shortest byte string of a number below `256 ^ k` has at most `k` bytes. -/
theorem bytesOfNat_length_le (fuel : Nat) {k n : Nat} (h : n < 256 ^ k) : (bytesOfNat fuel n []).length ≤ k := by
  induction fuel generalizing k n with
  | zero => simp [bytesOfNat]
  | succ fuel ih =>
    rw [bytesOfNat]
    split
    · simp
    · cases k with
      | zero => simp at h; omega
      | succ k =>
        have hk : n / 256 < 256 ^ k := Nat.div_lt_of_lt_mul (by rwa [Nat.pow_succ, Nat.mul_comm] at h)
        rw [bytesOfNat_append, List.length_append, List.length_singleton]
        exact Nat.succ_le_succ (ih hk)

/-! ### Lengths of the output strings -/

/-- 93 bytes, the most B58.ENC accepts, make at most 128 characters, since 256 ^ 93 ≤ 58 ^ 128 (R123 (d)). -/
theorem b58enc_length_le {s : List Byte} (h : s.length ≤ 93) : (b58enc s).length ≤ 128 := by
  have hz : leadingCount 0 s ≤ s.length := leadingCount_le 0 s
  have hval : beNat s < 58 ^ (128 - leadingCount 0 s) := by
    refine Nat.lt_of_mul_lt_mul_right (a := 58 ^ leadingCount 0 s) ?_
    calc beNat s * 58 ^ leadingCount 0 s
        < 256 ^ (s.length - leadingCount 0 s) * 58 ^ leadingCount 0 s :=
          Nat.mul_lt_mul_of_pos_right (beNat_lt_leadingCount s) (by positivity)
      _ ≤ 256 ^ (s.length - leadingCount 0 s) * 256 ^ leadingCount 0 s := by gcongr; decide
      _ = 256 ^ s.length := by rw [← Nat.pow_add, Nat.sub_add_cancel hz]
      _ ≤ 256 ^ 93 := by gcongr; decide
      _ ≤ 58 ^ 128 := by norm_num
      _ = 58 ^ (128 - leadingCount 0 s) * 58 ^ leadingCount 0 s := by
          rw [← Nat.pow_add, Nat.sub_add_cancel (by omega)]
  have hdigits := digits58_length_le (2 * s.length) hval
  simp only [b58enc, List.length_append, List.length_replicate, List.length_map]
  omega

/-- A decoded string is no longer than its text (R123 (e)). -/
theorem b58dec_length_le {t d : List Byte} (h : b58dec t = some d) : d.length ≤ t.length := by
  unfold b58dec at h
  split at h
  · cases h
  · cases h
    have hz : leadingCount (ascii '1') t ≤ t.length := leadingCount_le _ t
    have hval : valueOf58 t < 256 ^ (t.length - leadingCount (ascii '1') t) :=
      (valueOf58_lt_leadingCount t).trans_le (by gcongr; decide)
    have hbytes := bytesOfNat_length_le t.length hval
    simp only [List.length_append, List.length_replicate]
    omega

@[simp] theorem image_length (ver : Byte) (p : List Byte) : (image ver p).length = p.length + 5 := by
  simp [image]

/-- An opened image loses its version byte and the four bytes of its checksum (R175). -/
theorem openImage_length {d p : List Byte} {ver : Byte} (h : openImage d = some (ver, p)) :
    p.length + 5 = d.length := by
  unfold openImage at h
  split at h
  · cases h
  · split at h
    · cases h
    · split at h
      · cases h
      · cases h
        rename_i hcut
        have := congrArg List.length hcut
        simp only [List.length_take, List.length_cons] at this
        omega

/-- The payload of a text of at most 128 characters has at most 123 bytes (R32). -/
theorem b58cOpen_length_le {t p : List Byte} {ver : Byte} (h : b58cOpen t = some (ver, p)) :
    p.length + 5 ≤ t.length := by
  obtain ⟨d, hd, hp⟩ := Option.bind_eq_some_iff.1 h
  rw [openImage_length hp]
  exact b58dec_length_le hd

theorem takeSymbols_length_le (bits : List Bool) : 5 * (takeSymbols bits).length ≤ bits.length := by
  induction bits using takeSymbols.induct with
  | case1 b0 b1 b2 b3 b4 rest ih => simp only [takeSymbols, List.length_cons]; omega
  | case2 bits hshort => simp [takeSymbols]

theorem takeBytes_length_le (bits : List Bool) : 8 * (takeBytes bits).length ≤ bits.length := by
  induction bits using takeBytes.induct with
  | case1 b0 b1 b2 b3 b4 b5 b6 b7 rest ih => simp only [takeBytes, List.length_cons]; omega
  | case2 bits hshort => simp [takeBytes]

/-- 80 bytes, the most B32.GROUP accepts, make at most 128 symbols (R193). -/
theorem group_length_le {b : List Byte} (h : b.length ≤ 80) : (group b).length ≤ 128 := by
  have := takeSymbols_length_le (bits8 b ++ List.replicate (5 * groupCount b.length - 8 * b.length) false)
  simp only [List.length_append, bits8_length, List.length_replicate, groupCount] at this
  simp only [group, groupCount]
  omega

theorem ungroup_length_le {v : List Symbol} {b : List Byte} (h : ungroup v = some b) : b.length ≤ v.length := by
  simp only [ungroup] at h
  split at h
  · cases h
  · split at h
    · cases h
    · cases h
      have := takeBytes_length_le ((bits5 v).take (8 * (5 * v.length / 8)))
      simp only [List.length_take, bits5_length] at this
      omega

end Sys2Proof.Machine
end

section
/-! PROOFS. How a command that writes results ends, with the bounds its results keep: an output string of at most 128
bytes (R31) and a value of RES0 within the bounds of its fields (R32). -/

namespace Sys2Proof.Machine

/-- RES0 within its bounds: PAYLEN is 0..123, and TPLIDX is 0 without a hit (R32). -/
def Res0.Bounded (r0 : Res0) : Prop := r0.payLen.toNat ≤ 123 ∧ (r0.tplHit = false → r0.tplIdx = 0)

theorem noRes0_bounded : noRes0.Bounded := ⟨by decide, fun _ => rfl⟩

theorem decodedRes0_payLen (ver : Byte) {n : Nat} (h : n ≤ 123) : (decodedRes0 ver n).payLen.toNat = n := by
  rw [decodedRes0, BitVec.toNat_ofNat, Nat.mod_eq_of_lt (by omega)]

theorem decodedRes0_bounded (ver : Byte) {n : Nat} (h : n ≤ 123) : (decodedRes0 ver n).Bounded :=
  ⟨by rwa [decodedRes0_payLen ver h], fun _ => rfl⟩

/-- A command that writes results answers a success or a failure within the bounds of OLEN and RES0. -/
inductive EndsBounded (s : State) : (o : Host.Outcome State Fault Refusal) → Prop where
  | success (bs : List Byte) (r0 : Res0) (rid : Residue) (hlen : bs.length ≤ 128) (hr0 : r0.Bounded) :
    EndsBounded s (.next (succeed bs r0 rid s))
  | failure (e : ErrCode) (r0 : Res0) (hr0 : r0.Bounded) : EndsBounded s (.next (failKeeping e r0 s))

namespace EndsBounded

variable {s : State} {o : Host.Outcome State Fault Refusal}

theorem failWith (e : ErrCode) : EndsBounded s (.next (failWith e s)) := .failure e noRes0 noRes0_bounded

/-- A success without a decode leaves RES0 at 0. -/
theorem plain {bs : List Byte} (rid : Residue) (h : bs.length ≤ 128) :
    EndsBounded s (.next (succeed bs noRes0 rid s)) := .success bs noRes0 rid h noRes0_bounded

/-- A check that fails the command, or goes on knowing it has passed. -/
theorem check {c : Prop} [Decidable c] (e : ErrCode) (h : ¬ c → EndsBounded s o) :
    EndsBounded s (if c then .next (Machine.failWith e s) else o) := by
  split
  · exact failWith e
  · exact h ‹_›

end EndsBounded

variable (s : State)

theorem execB58cEnc_endsBounded (ver : Byte) : EndsBounded s (execB58cEnc ver s) :=
  .check .len fun hl => .plain 0 (b58enc_length_le (by simp [Config.payloadMax] at hl ⊢; omega))

theorem finishB58cDec_endsBounded (ver : Byte) {p : List Byte} (hp : p.length ≤ 123) (r : TemplateResult) :
    EndsBounded s (.next (finishB58cDec ver p s r)) := by
  have hlen : p.length ≤ 128 := hp.trans (by decide)
  have hr0 := decodedRes0_bounded ver hp
  cases r with
  | notTested => exact .success p _ 0 hlen hr0
  | unknownVersion => exact .failure _ _ hr0
  | wrongLength => exact .failWith _
  | hit idx => exact .success p _ 0 hlen ⟨hr0.1, fun hmiss => by cases hmiss⟩

theorem execB58cDec_endsBounded : EndsBounded s (execB58cDec s) := by
  refine .check .len fun hl => ?_
  cases hopen : b58cOpen (inputString s) with
  | none => exact .failWith _
  | some image =>
    obtain ⟨ver, p⟩ := image
    have hp := b58cOpen_length_le hopen
    rw [inputString_length] at hp
    exact finishB58cDec_endsBounded s ver (by omega) _

theorem execB58Enc_endsBounded : EndsBounded s (execB58Enc s) :=
  .check .len fun hl => .plain 0 (b58enc_length_le (by simpa using hl))

theorem execB58Dec_endsBounded : EndsBounded s (execB58Dec s) := by
  refine .check .len fun hl => ?_
  cases hdec : b58dec (inputString s) with
  | none => exact .failWith _
  | some b =>
    have hb := b58dec_length_le hdec
    rw [inputString_length] at hb
    exact .plain 0 (by omega)

theorem execHash256_endsBounded : EndsBounded s (execHash256 s) := .check .len fun _ => .plain 0 (by simp)

theorem execCksum4_endsBounded : EndsBounded s (execCksum4 s) := .check .len fun _ => .plain 0 (by simp)

theorem execB32Group_endsBounded : EndsBounded s (execB32Group s) :=
  .check .len fun hl => .plain 0 (by simpa using group_length_le (by simpa using hl))

theorem execB32Ungroup_endsBounded : EndsBounded s (execB32Ungroup s) := by
  refine .check .len fun hl => .check .value fun _ => ?_
  cases hun : ungroup (symbolsOf (inputString s)) with
  | none => exact .failWith _
  | some b =>
    have hb := ungroup_length_le hun
    rw [symbolsOf_length, inputString_length] at hb
    exact .plain 0 (by omega)

theorem execB32Polymod_endsBounded : EndsBounded s (execB32Polymod s) :=
  .check .len fun _ => .check .hrp fun _ => .check .hrp fun _ => .check .value fun _ => .plain _ (by simp)

theorem execB32Cksum_endsBounded (var : Variant) : EndsBounded s (execB32Cksum var s) :=
  .check .len fun _ => .check .hrp fun _ => .check .hrp fun _ => .check .value fun _ => .plain _ (by simp)

theorem execB32Enc_endsBounded (var : Variant) : EndsBounded s (execB32Enc var s) :=
  .check .len fun _ => .check .hrp fun _ => .check .b32TooLong fun hshort => .check .hrp fun _ =>
    .check .value fun _ => .plain _ (by simp [Config.b32TotalMax] at hshort ⊢; omega)

/-- Every command but NOP and MOV.O2I ends within the bounds of OLEN and RES0. -/
theorem exec_endsBounded {i : Instr} (hw : writesResults i = true) : EndsBounded s (exec i s) := by
  cases i with
  | nop => cases hw
  | b58cEnc ver => exact execB58cEnc_endsBounded s ver
  | b58cDec => exact execB58cDec_endsBounded s
  | b58Enc => exact execB58Enc_endsBounded s
  | b58Dec => exact execB58Dec_endsBounded s
  | hash256 => exact execHash256_endsBounded s
  | cksum4 => exact execCksum4_endsBounded s
  | b32Group => exact execB32Group_endsBounded s
  | b32Ungroup => exact execB32Ungroup_endsBounded s
  | b32Polymod => exact execB32Polymod_endsBounded s
  | b32Cksum var => exact execB32Cksum_endsBounded s var
  | b32Enc var => exact execB32Enc_endsBounded s var
  | movO2I off => cases hw

end Sys2Proof.Machine
end

section
/-! PROOFS. What a completion and a step can do to the block's registers and buffers, said once (R60, R66, R232, R280).
The pins, the schedule and the port's answer are put aside: no invariant of O57, O58 or O60 speaks of them. -/

namespace Sys2Proof.Machine

/-! ### Completion -/

/-- What the completion of a command word makes of the block (R232): a bare completion (NOP, or MOV.O2I when its
length test fails), the copy of MOV.O2I, or a success or a failure of a command that writes results. -/
inductive Completion (s : State) : State → Prop where
  | bare (e : ErrCode) : Completion s (complete e s)
  | move (off : Byte) (hfits : off.toNat + s.olen.toNat ≤ 128) :
    Completion s (complete .ok { writeBytes (ibufBase + off.toNat) (outputString s) s with
      ilen := BitVec.ofNat 8 (off.toNat + s.olen.toNat) })
  | success (bs : List Byte) (r0 : Res0) (rid : Residue) (hlen : bs.length ≤ 128) (hr0 : r0.Bounded) :
    Completion s (succeed bs r0 rid s)
  | failure (e : ErrCode) (r0 : Res0) (hr0 : r0.Bounded) : Completion s (failKeeping e r0 s)

theorem EndsBounded.completion {s t : State} (h : EndsBounded s (.next t)) : Completion s t := by
  cases h with
  | success bs r0 rid hlen hr0 => exact .success bs r0 rid hlen hr0
  | failure e r0 hr0 => exact .failure e r0 hr0

theorem exec_completion {i : Instr} {s t : State} (h : exec i s = .next t) : Completion s t := by
  cases hw : writesResults i with
  | true => exact (h ▸ exec_endsBounded s hw).completion
  | false =>
    cases i with
    | nop => cases h; exact .bare .ok
    | movO2I off =>
      rcases execMovO2I_cases off s with ⟨-, hm⟩ | ⟨hfits, hm⟩ <;> cases hm.symm.trans h
      · exact .bare .len
      · exact .move off hfits
    | _ => cases hw

/-- Every command answers a next state (R232). -/
theorem exec_answers (i : Instr) (s : State) : ∃ t, exec i s = .next t := by
  rcases exec_finishes i s with (⟨bs, r0, rid, h⟩ | ⟨e, r0, -, h⟩) | ⟨-, h⟩ | ⟨off, -, h⟩
  · exact ⟨_, h⟩
  · exact ⟨_, h⟩
  · exact ⟨_, h⟩
  · rcases execMovO2I_cases off s with ⟨-, hm⟩ | ⟨-, hm⟩ <;> exact ⟨_, h.trans hm⟩

/-- The engine's turn completes the running command or, when idle, does nothing (R232). -/
theorem engineTurn_completion {s t : State} (h : engineTurn s = .next t) : t = s ∨ Completion s t := by
  rcases engineTurn_cases h with ⟨-, ho⟩ | ⟨w, tc, -, ⟨r, -, ho⟩ | ⟨i, -, ho⟩⟩
  · cases ho; exact .inl rfl
  · cases ho; exact .inr (.failure _ _ noRes0_bounded)
  · exact .inr (exec_completion ho.symm)

/-- Every completion writes ERR and FAIL, raises DONE and leaves the phase IDLE (R232). -/
theorem Completion.exists_complete {s t : State} (h : Completion s t) : ∃ e u, t = complete e u := by
  cases h with
  | bare e => exact ⟨e, s, rfl⟩
  | move off hfits => exact ⟨.ok, _, rfl⟩
  | success bs r0 rid hlen hr0 => exact ⟨.ok, _, rfl⟩
  | failure e r0 hr0 => exact ⟨e, _, rfl⟩

theorem Completion.hfault {s t : State} (h : Completion s t) : t.hfault = s.hfault := by
  cases h <;> rfl

/-! ### The places of the window -/

/-- Only the word at 0x004 is CTRL (R61). -/
theorem target_ctrl {off : Offset} {size : Size} (h : target off size = some .ctrl) : size = .word ∧ off = 0x004 := by
  cases size with
  | byte => simp [target] at h
  | word =>
    have key : ∀ off : Offset, target off .word = some .ctrl → off = 0x004 := by decide +kernel
    exact ⟨rfl, key off h⟩

theorem registerAt_ne_buffer (n a : Nat) : registerAt n ≠ some (.buffer a) := by
  unfold registerAt
  split <;> simp

/-- A writable buffer byte is one of HBUF or IBUF (R64, R66). -/
theorem target_buffer {off : Offset} {size : Size} {a : Nat} (h : target off size = some (.buffer a))
    (hw : readOnly (.buffer a) = false) : isBuffer a = true ∧ isObuf a = false := by
  cases size with
  | byte =>
    simp only [target, Option.ite_none_right_eq_some, Option.some.injEq, Target.buffer.injEq] at h
    obtain ⟨hbuf, rfl⟩ := h
    exact ⟨hbuf, hw⟩
  | word =>
    simp only [target, Option.ite_none_right_eq_some] at h
    exact absurd h.2 (registerAt_ne_buffer _ a)

/-! ### The step -/

/-- The states differ at most in the pins, the schedule and the port: every register and buffer byte is the same. -/
inductive SameBlock (s : State) : State → Prop where
  | intro (level inReset : Bool) (pending : List Event) (resp : Option Response) (portDraw : Nat) :
    SameBlock s { s with rstN := level, inReset := inReset, pending := pending, resp := resp, portDraw := portDraw }

namespace SameBlock

theorem refl (s : State) : SameBlock s s := .intro s.rstN s.inReset s.pending s.resp s.portDraw

theorem trans {s t u : State} (h : SameBlock s t) (h' : SameBlock t u) : SameBlock s u := by
  cases h
  cases h'
  exact .intro ..

/-- An access sets at most the port's answer and its count of refused reads. -/
theorem answer (s : State) (resp : Option Response) (portDraw : Nat) :
    SameBlock s { s with resp := resp, portDraw := portDraw } :=
  .intro s.rstN s.inReset s.pending resp portDraw

theorem schedule (s : State) (pending : List Event) : SameBlock s { s with pending := pending } :=
  .intro s.rstN s.inReset pending s.resp s.portDraw

theorem sampleReset (s : State) : SameBlock s (sampleReset s) := by
  unfold Machine.sampleReset
  split
  · exact .intro s.rstN false s.pending s.resp s.portDraw
  · exact refl s

theorem hfault {s t : State} (h : SameBlock s t) : t.hfault = s.hfault := by
  cases h
  rfl

end SameBlock

/-- The schedule's first event resets the block (R280, R283). -/
def ResetIsNext (s : State) : Prop := ∃ e rest, s.pending = e :: rest ∧ resets e = true

/-- What one step makes of the block's registers and buffers; a reset needs its cause `cause`. -/
inductive Effect (cause : Prop) (s : State) : State → Prop where
  /-- an accepted read, an access in reset, an edge that completes nothing, a write that changes nothing -/
  | keep : Effect cause s s
  /-- a refused access (R262) -/
  | refuse : Effect cause s { s with hfault := true }
  /-- either reset (R42, R280, R283) -/
  | reset (hcause : cause) : Effect cause s (resetBlock s)
  /-- the host writes CTRL, ILEN, HLEN or an entry of TPL (R66) -/
  | configure (ie tplchk : Bool) (ilen hlen : Byte) (tpl : Vector Template 16) :
    Effect cause s { s with ie := ie, tplchk := tplchk, ilen := ilen, hlen := hlen, tpl := tpl }
  /-- the host clears DONE (R27) -/
  | clearDone : Effect cause s { s with done := false }
  /-- the host writes CMD (R230) -/
  | start (w : Word) : Effect cause s (startCommand w s)
  /-- the host writes a byte of HBUF or IBUF (R66) -/
  | storeByte (a : Nat) (b : Byte) (hbuf : isBuffer a = true) (hin : isObuf a = false) :
    Effect cause s (writeByte a b s)
  /-- the running command or illegal word completes (R232) -/
  | completion {t : State} (h : Completion s t) : Effect cause s t

section
variable {cause : Prop}

/-- The effect of an accepted write (R66). -/
theorem writeValue_effect {s : State} {off : Offset} {size : Size} {v : Word} {p : Target}
    (hcause : resets (.write off size v) = true → cause) (h : writeTarget s off size = some p) :
    Effect cause s (writeValue v s p) := by
  obtain ⟨hp, hacc⟩ := Option.filter_eq_some_iff.1 h
  cases p with
  | ctrl =>
    obtain ⟨rfl, rfl⟩ := target_ctrl hp
    simp only [writeValue, writeCtrl]
    split
    · exact .reset (hcause (by simpa [resets] using ‹_›))
    · exact .configure _ _ s.ilen s.hlen s.tpl
  | cmd => exact .start v
  | status =>
    simp only [writeValue, writeStatus]
    split
    · exact .clearDone
    · exact .keep
  | ilen => exact .configure s.ie s.tplchk _ s.hlen s.tpl
  | hlen => exact .configure s.ie s.tplchk s.ilen _ s.tpl
  | tpl i => exact .configure s.ie s.tplchk s.ilen s.hlen _
  | buffer a =>
    have hw : readOnly (.buffer a) = false := by simpa using (Bool.and_eq_true_iff.1 hacc).1
    obtain ⟨hbuf, hin⟩ := target_buffer hp hw
    exact .storeByte a _ hbuf hin
  | id | err | olen | res0 | resid => exact .keep

theorem hostRead_effect (off : Offset) (size : Size) (s : State) :
    ∃ u, Effect cause s u ∧ SameBlock u (hostRead off size s) := by
  rcases hostRead_cases off size s with ⟨-, hr⟩ | ⟨p, -, hr⟩ <;> rw [hr]
  · exact ⟨_, .refuse, .answer ..⟩
  · exact ⟨s, .keep, .answer s _ s.portDraw⟩

theorem hostWrite_effect {off : Offset} {size : Size} {v : Word}
    (hcause : resets (.write off size v) = true → cause) (s : State) :
    ∃ u, Effect cause s u ∧ SameBlock u (hostWrite off size v s) := by
  rcases hostWrite_cases off size v s with ⟨-, hr⟩ | ⟨p, hp, hr⟩ <;> rw [hr]
  · exact ⟨_, .refuse, .answer _ _ s.portDraw⟩
  · exact ⟨_, writeValue_effect hcause hp, .answer ..⟩

/-- One event has one effect on the block, between changes of the pins and the port (R65, R66, R280, R290). -/
theorem handleEvent_effect {e : Event} {s t : State} (hcause : resets e = true → cause)
    (h : handleEvent e s = .next t) : ∃ s0 u, SameBlock s s0 ∧ Effect cause s0 u ∧ SameBlock u t := by
  cases e with
  | read off size =>
    cases h
    split
    · exact ⟨s, s, .refl s, .keep, .answer ..⟩
    · obtain ⟨u, hu, ht⟩ := hostRead_effect (cause := cause) off size s
      exact ⟨s, u, .refl s, hu, ht⟩
  | write off size v =>
    cases h
    split
    · exact ⟨s, s, .refl s, .keep, .answer s _ s.portDraw⟩
    · obtain ⟨u, hu, ht⟩ := hostWrite_effect hcause s
      exact ⟨s, u, .refl s, hu, ht⟩
  | rstN level =>
    cases h
    cases level with
    | true => exact ⟨s, s, .refl s, .keep, .intro true s.inReset s.pending s.resp s.portDraw⟩
    | false => exact ⟨s, _, .refl s, .reset (hcause rfl), .intro false true s.pending s.resp s.portDraw⟩
  | clk completes =>
    cases completes with
    | false => cases h; exact ⟨s, s, .refl s, .keep, .sampleReset s⟩
    | true =>
      rcases engineTurn_completion h with rfl | hc
      · exact ⟨s, s, .refl s, .keep, .sampleReset s⟩
      · exact ⟨_, t, .sampleReset s, .completion hc, .refl t⟩

end

/-- One step has one effect on the block, between changes of the pins, the schedule and the port (R60, R232). -/
theorem step_effect {s t : State} (h : step s = .next t) :
    ∃ s0 u, SameBlock s s0 ∧ Effect (ResetIsNext s) s0 u ∧ SameBlock u t := by
  rcases step_cases h with ⟨-, hengine⟩ | ⟨e, rest, hpending, hevent⟩
  · rcases engineTurn_completion hengine with rfl | hc
    · exact ⟨t, t, .refl t, .keep, .refl t⟩
    · exact ⟨s, t, .refl s, .completion hc, .refl t⟩
  · obtain ⟨s0, u, hs0, hu, ht⟩ := handleEvent_effect (cause := ResetIsNext s)
      (fun hreset => ⟨e, rest, hpending, hreset⟩) hevent
    exact ⟨s0, u, .trans (.schedule s rest) hs0, hu, ht⟩

/-- A property of the registers and buffers that every effect keeps is kept by every step. -/
theorem step_keeps {P : State → Prop} (hsame : ∀ {s t}, SameBlock s t → P s → P t)
    (heffect : ∀ {cause s t}, Effect cause s t → P s → P t) {s t : State} (h : step s = .next t) (hs : P s) : P t := by
  obtain ⟨s0, u, hs0, hu, ht⟩ := step_effect h
  exact hsame ht (heffect hu (hsame hs0 hs))

/-! ### Scheduled events outside reset, and accepted accesses -/

section
variable {s : State} {rest : List Event} {off : Offset} {size : Size} {v : Word} {p : Target}

theorem step_read (hreset : s.inReset = false) (hnext : s.pending = .read off size :: rest) :
    step s = .next (hostRead off size { s with pending := rest }) := by
  simp [step, stepState, hnext, handleEvent, hreset]

theorem step_write (hreset : s.inReset = false) (hnext : s.pending = .write off size v :: rest) :
    step s = .next (hostWrite off size v { s with pending := rest }) := by
  simp [step, stepState, hnext, handleEvent, hreset]

theorem step_completingEdge (hreset : s.inReset = false) (hnext : s.pending = .clk true :: rest) :
    step s = engineTurn { s with pending := rest } := by
  simp [step, stepState, hnext, handleEvent, sampleReset, hreset]

theorem hostRead_accepted (h : readTarget s off size = some p) :
    hostRead off size s = { s with resp := some (.readOk (readValue s p)) } := by
  rw [hostRead, h]

theorem hostWrite_accepted (h : writeTarget s off size = some p) :
    hostWrite off size v s = { writeValue v s p with resp := some .writeOk } := by
  rw [hostWrite, h]

/-- BUSY protects nothing of an idle block (R65). -/
theorem readTarget_of_idle (hidle : s.phase = .idle) (h : target off size = some p) :
    readTarget s off size = some p := by
  simp [readTarget, h, busy, hidle]

/-- CTRL may be written also while BUSY (R66, R68). -/
theorem writeTarget_ctrl (s : State) : writeTarget s 0x004 .word = some .ctrl := by
  have hctrl : target 0x004 .word = some .ctrl := rfl
  rw [writeTarget, hctrl]
  simp [readOnly, writableWhileBusy]

end

end Sys2Proof.Machine
end

section
/-! PROOFS. The invariants that every step keeps (R21, R26, R27, R31, R32, R37, R38), each from the effects of a step;
that they hold of the state after reset (R42); and that HFAULT is cleared by nothing but a reset (R27). -/

namespace Sys2Proof.Machine

/-! ### OLEN and the defined bytes of OBUF -/

/-- A change of memory outside OBUF keeps the agreement of OLEN and OBUF. -/
theorem obufInv_congr {s t : State} (h : ObufInv s) (holen : t.olen = s.olen)
    (hmem : ∀ i, i < 128 → Memory.get t.mem (0x180 + i) = Memory.get s.mem (0x180 + i)) : ObufInv t :=
  ⟨holen ▸ h.1, fun i hi => by rw [hmem i hi, holen]; exact h.2 i hi⟩

/-- `out` defines exactly the bytes of OBUF below the new OLEN (R8, R38). -/
theorem obufInv_out {bs : List Byte} (hlen : bs.length ≤ 128) (s : State) : ObufInv (out bs s) := by
  have holen : (out bs s).olen.toNat = bs.length := by
    rw [out_olen, BitVec.toNat_ofNat, Nat.mod_eq_of_lt (by omega)]
  refine ⟨by rwa [holen], fun i hi => ?_⟩
  rw [holen, out_mem]
  by_cases hin : i < bs.length
  · simp [get_store_inside _ _ _ _ hin, hin]
  · have hobuf : isObuf (0x180 + i) = true := (isObuf_iff _).2 (by omega)
    rw [get_store_outside _ _ _ _ (by simp only [obufBase]; omega), get_clearObuf]
    simp [hobuf, hin]

theorem obufInv_reset (s : State) : ObufInv (resetBlock s) := ⟨Nat.zero_le _, fun i _ => by simp⟩

theorem obufInv_completion {s t : State} (h : Completion s t) (hs : ObufInv s) : ObufInv t := by
  cases h with
  | bare e => exact hs
  | move off hfits =>
    refine obufInv_congr hs rfl fun i _ => ?_
    exact get_store_outside _ _ _ _ (.inr (by simp only [outputString_length, ibufBase]; omega))
  | success bs r0 rid hlen hr0 => exact obufInv_out hlen s
  | failure e r0 hr0 => exact obufInv_out (bs := []) (by decide) s

theorem obufInv_effect {cause : Prop} {s t : State} (h : Effect cause s t) (hs : ObufInv s) : ObufInv t := by
  cases h with
  | keep | refuse | configure | clearDone | start => exact hs
  | reset hcause => exact obufInv_reset s
  | storeByte a b hbuf hin =>
    refine obufInv_congr hs rfl fun i hi => get_set_other _ b fun heq => ?_
    rw [← heq, (isObuf_iff _).2 (by omega)] at hin
    cases hin
  | completion hc => exact obufInv_completion hc hs

/-- Settles O57: every effect of a step keeps the agreement of OLEN and OBUF; a success defines exactly its output
string, of at most 128 bytes, and MOV.O2I writes IBUF only. -/
theorem stepKeepsObufListed : Obligations.StepKeepsObufListed :=
  fun _ _ => step_keeps (fun h hs => by cases h; exact hs) obufInv_effect

/-! ### The command lifecycle -/

/-- Every completion leaves a state of the lifecycle, whatever was before it (R232). -/
theorem lifecycleInv_complete (e : ErrCode) (s : State) : LifecycleInv (complete e s) :=
  ⟨fun _ _ hrun => (by cases hrun), fun _ => (by cases e <;> rfl), fun hfail => (by simpa [failFlag] using hfail)⟩

theorem lifecycleInv_start (w : Word) (s : State) : LifecycleInv (startCommand w s) :=
  ⟨fun _ _ hrun => (by cases hrun; exact ⟨rfl, rfl, rfl⟩), fun hdone => (by cases hdone), fun hfail => (by cases hfail)⟩

theorem lifecycleInv_reset (s : State) : LifecycleInv (resetBlock s) :=
  ⟨fun _ _ hrun => (by cases hrun), fun hdone => (by cases hdone), fun hfail => (by cases hfail)⟩

theorem lifecycleInv_effect {cause : Prop} {s t : State} (h : Effect cause s t) (hs : LifecycleInv s) :
    LifecycleInv t := by
  cases h with
  | keep | refuse | configure | storeByte => exact hs
  | reset hcause => exact lifecycleInv_reset s
  | clearDone =>
    obtain ⟨hrun, -, hfail⟩ := hs
    refine ⟨fun w tc hphase => ?_, fun hdone => (by cases hdone), hfail⟩
    obtain ⟨hcmd, -, hnofail⟩ := hrun w tc hphase
    exact ⟨hcmd, rfl, hnofail⟩
  | start w => exact lifecycleInv_start w s
  | completion hc =>
    obtain ⟨e, u, rfl⟩ := hc.exists_complete
    exact lifecycleInv_complete e u

/-- Settles O58: every effect of a step keeps the lifecycle; a start clears DONE and FAIL, a completion writes them. -/
theorem stepKeepsLifecycle : Obligations.StepKeepsLifecycle :=
  fun _ _ => step_keeps (fun h hs => by cases h; exact hs) lifecycleInv_effect

/-! ### RES0 -/

theorem res0Inv_completion {s t : State} (h : Completion s t) (hs : Res0Inv s) : Res0Inv t := by
  cases h with
  | bare | move => exact hs
  | success bs r0 rid hlen hr0 => exact hr0
  | failure e r0 hr0 => exact hr0

theorem res0Inv_effect {cause : Prop} {s t : State} (h : Effect cause s t) (hs : Res0Inv s) : Res0Inv t := by
  cases h with
  | keep | refuse | configure | clearDone | start | storeByte => exact hs
  | reset hcause => exact noRes0_bounded
  | completion hc => exact res0Inv_completion hc hs

/-- Settles O60: only a completion and a reset write RES0, both within its bounds; a decoded payload has at most 123
bytes. -/
theorem stepKeepsRes0 : Obligations.StepKeepsRes0 :=
  fun _ _ => step_keeps (fun h hs => by cases h; exact hs) res0Inv_effect

/-! ### HFAULT -/

theorem hfault_effect {cause : Prop} {s t : State} (h : Effect cause s t) (hs : s.hfault = true) :
    t.hfault = true ∨ cause := by
  cases h with
  | keep | configure | clearDone | start | storeByte => exact .inl hs
  | refuse => exact .inl rfl
  | reset hcause => exact .inr hcause
  | completion hc => exact .inl (hc.hfault.trans hs)

/-- Settles O49: of all the effects of a step only a reset clears HFAULT. -/
theorem hfaultIsSticky : Obligations.HfaultIsSticky := by
  intro s t hs h
  obtain ⟨s0, u, hs0, hu, ht⟩ := step_effect h
  exact (hfault_effect hu (hs0.hfault.trans hs)).imp_left ht.hfault.trans

/-! ### The state after reset -/

/-- Settles O55: no buffer byte is listed, no command has run, and every register is 0. -/
theorem invariantsHoldAtReset : Obligations.InvariantsHoldAtReset :=
  ⟨wf_reset, obufInv_reset State.reset, lifecycleInv_reset State.reset,
    ⟨fun hlow => (by cases hlow), fun hin => (by cases hin)⟩, noRes0_bounded, rfl⟩

end Sys2Proof.Machine
end

section
/-! PROOFS. The frame of a completion: which registers and bytes it leaves alone (R29, R30, R33, R35, R36, R236, R250),
and what a byte of OBUF at or beyond OLEN reads as after it (R38). -/

namespace Sys2Proof.Machine

theorem Completion.controlKept {s t : State} (h : Completion s t) : ControlKept s t := by
  cases h <;> exact ⟨rfl, rfl, rfl, rfl, rfl, rfl, rfl, rfl, rfl, rfl, rfl, rfl⟩

/-- `out` changes no byte of HBUF or IBUF. -/
theorem readByte_out_outside {bs : List Byte} (hlen : bs.length ≤ 128) (s : State) (a : Nat)
    (ha : ¬ (0x180 ≤ a ∧ a < 0x200)) : readByte (out bs s) a = readByte s a :=
  readByte_out_other s bs a hlen (Bool.eq_false_iff.2 fun hobuf => ha ((isObuf_iff a).1 hobuf))

/-- A command that writes results leaves ILEN and every byte of HBUF and IBUF unchanged (R250). -/
theorem EndsBounded.inputKept {s t : State} (h : EndsBounded s (.next t)) :
    t.ilen = s.ilen ∧ ∀ a, ¬ (0x180 ≤ a ∧ a < 0x200) → readByte t a = readByte s a := by
  cases h with
  | success bs r0 rid hlen hr0 =>
    exact ⟨rfl, fun a ha => by rw [readByte_succeed, readByte_out_outside hlen s a ha]⟩
  | failure e r0 hr0 =>
    exact ⟨rfl, fun a ha => by rw [readByte_failKeeping, readByte_out_outside (by decide) s a ha]⟩

/-- MOV.O2I keeps OLEN, RES0 and RESID, and every byte outside the range of IBUF it writes (R236). -/
theorem execMovO2I_frame {off : Byte} {s t : State} (h : execMovO2I off s = .next t) :
    t.olen = s.olen ∧ t.res0 = s.res0 ∧ t.resid = s.resid ∧
      ∀ a, ¬ (0x100 + off.toNat ≤ a ∧ a < 0x100 + off.toNat + s.olen.toNat) → readByte t a = readByte s a := by
  rcases execMovO2I_cases off s with ⟨-, hm⟩ | ⟨-, hm⟩ <;> cases hm.symm.trans h
  · exact ⟨rfl, rfl, rfl, fun a _ => readByte_complete ..⟩
  · refine ⟨rfl, rfl, rfl, fun a ha => ?_⟩
    rw [readByte_complete]
    exact readByte_writeBytes_outside s _ _ a (by simp only [outputString_length, ibufBase]; omega)

/-- Settles O38: the frame of a completion, and of NOP, MOV.O2I and the commands that write results each. -/
theorem commandsKeepInputs : Obligations.CommandsKeepInputs := by
  intro i s t h
  refine ⟨(exec_completion h).controlKept, ?_⟩
  cases hw : writesResults i with
  | true =>
    exact ⟨fun _ => (h ▸ exec_endsBounded s hw).inputKept, fun off hi => (by subst hi; cases hw),
      fun hi => (by subst hi; cases hw)⟩
  | false =>
    cases i with
    | nop =>
      cases h
      exact ⟨fun _ => ⟨rfl, fun a _ => readByte_complete ..⟩, fun off hi => (by cases hi),
        fun _ => ⟨rfl, rfl, rfl, fun a => readByte_complete ..⟩⟩
    | movO2I off =>
      exact ⟨fun hne => absurd rfl (hne off), fun off' hi => (by cases hi; exact execMovO2I_frame h),
        fun hi => (by cases hi)⟩
    | _ => cases hw

/-- After a failing completion every byte of OBUF is a fresh free value (R38, R250). -/
theorem readByte_failKeeping_obuf (e : ErrCode) (r0 : Res0) (s : State) (k : Nat) (hk : k < 128) :
    readByte (failKeeping e r0 s) (0x180 + k) = Config.freeByte (s.outDraw + 1) (0x180 + k) := by
  rw [readByte_failKeeping]
  exact readByte_out_beyond s [] k (Nat.zero_le k) hk

/-- A command that writes results leaves OLEN at most 128 and draws the bytes of OBUF at or beyond it anew (R38). -/
theorem EndsBounded.obufBeyond {s t : State} (h : EndsBounded s (.next t)) :
    t.olen.toNat ≤ 128 ∧ t.outDraw = s.outDraw + 1 ∧
      ∀ k, t.olen.toNat ≤ k → k < 128 → readByte t (0x180 + k) = Config.freeByte (s.outDraw + 1) (0x180 + k) := by
  cases h with
  | success bs r0 rid hlen hr0 =>
    have holen : (succeed bs r0 rid s).olen.toNat = bs.length := by
      rw [succeed_olen, BitVec.toNat_ofNat, Nat.mod_eq_of_lt (by omega)]
    rw [holen]
    refine ⟨hlen, rfl, fun k hbeyond hk => ?_⟩
    rw [readByte_succeed]
    exact readByte_out_beyond s bs k hbeyond hk
  | failure e r0 hr0 => exact ⟨Nat.zero_le _, rfl, fun k _ hk => readByte_failKeeping_obuf e r0 s k hk⟩

/-- Settles O40: `out` draws OBUF anew in a success and in a failure, an illegal word's among them. -/
theorem obufBeyondOlenIsFree : Obligations.ObufBeyondOlenIsFree :=
  ⟨fun _ s _ hw h => (h ▸ exec_endsBounded s hw).obufBeyond,
    fun s => ⟨rfl, rfl, fun k hk => readByte_failKeeping_obuf .illegalCmd noRes0 s k hk⟩⟩

end Sys2Proof.Machine
end

section
/-! PROOFS. What the registers read as (R22 to R33): a word is the sum of its fields, each at its place, and an idle
block answers a read of a register's offset with its word (R65); so does the block after reset (R42). -/

namespace Sys2Proof.Machine

/-! ### Words as sums of fields -/

section
variable {low : Word} {n pos : Nat}

/-- A field above the bits of the word so far adds its value at its place. -/
theorem toNat_or_field {field : Word} (hlow : low.toNat = n) (hn : n < 2 ^ pos)
    (hfield : field.toNat * 2 ^ pos < 2 ^ 32) : (low ||| field <<< pos).toNat = n + 2 ^ pos * field.toNat := by
  subst hlow
  rw [BitVec.toNat_or, BitVec.toNat_shiftLeft, Nat.shiftLeft_eq, Nat.mod_eq_of_lt hfield, ← Nat.shiftLeft_eq,
    Nat.or_comm, ← Nat.shiftLeft_add_eq_or_of_lt hn, Nat.shiftLeft_eq, Nat.mul_comm, Nat.add_comm]

/-- A named field of `w` bits, as a register's word holds it. -/
theorem toNat_or_setWidth {w : Nat} (hlow : low.toNat = n) (hn : n < 2 ^ pos) (hw : w + pos ≤ 32) (x : BitVec w) :
    (low ||| x.setWidth 32 <<< pos).toNat = n + 2 ^ pos * x.toNat := by
  have hx : (x.setWidth 32).toNat = x.toNat := BitVec.toNat_setWidth_of_le (by omega)
  have hfield : x.toNat * 2 ^ pos < 2 ^ 32 := by
    calc x.toNat * 2 ^ pos < 2 ^ w * 2 ^ pos := Nat.mul_lt_mul_of_pos_right x.isLt (Nat.two_pow_pos pos)
      _ = 2 ^ (w + pos) := (Nat.pow_add ..).symm
      _ ≤ 2 ^ 32 := Nat.pow_le_pow_right (by decide) hw
  rw [toNat_or_field hlow hn (by rwa [hx]), hx]

/-- A one-bit field, as a register's word holds it. -/
theorem toNat_or_bitAt (hlow : low.toNat = n) (hn : n < 2 ^ pos) (hpos : pos < 32) (b : Bool) :
    (low ||| bitAt pos b).toNat = n + 2 ^ pos * bitNat b := by
  have hb : (BitVec.ofBool b).toNat = bitNat b := by cases b <;> rfl
  rw [bitAt, toNat_or_setWidth hlow hn (by omega), hb]

end

theorem toNat_bitAt_zero (b : Bool) : (bitAt 0 b).toNat = bitNat b := by cases b <;> rfl

theorem bitNat_le_one (b : Bool) : bitNat b ≤ 1 := by cases b <;> decide

theorem toNat_byteWord (b : Byte) : (b.setWidth 32 : Word).toNat = b.toNat := BitVec.toNat_setWidth_of_le (by decide)

theorem ctrlWord_toNat (s : State) : (ctrlWord s).toNat = bitNat s.ie + 2 * bitNat s.tplchk := by
  have hie := bitNat_le_one s.ie
  exact toNat_or_bitAt (toNat_bitAt_zero _) (by omega) (by decide) _

theorem statusWord_toNat (s : State) :
    (statusWord s).toNat = bitNat (busy s) + 2 * bitNat s.done + 4 * bitNat s.fail + 8 * bitNat s.hfault := by
  have hbusy := bitNat_le_one (busy s)
  have hdone := bitNat_le_one s.done
  have hfail := bitNat_le_one s.fail
  have done_field : (bitAt 0 (busy s) ||| bitAt 1 s.done).toNat = bitNat (busy s) + 2 * bitNat s.done :=
    toNat_or_bitAt (toNat_bitAt_zero _) (by omega) (by decide) _
  have fail_field : (bitAt 0 (busy s) ||| bitAt 1 s.done ||| bitAt 2 s.fail).toNat =
      bitNat (busy s) + 2 * bitNat s.done + 4 * bitNat s.fail :=
    toNat_or_bitAt done_field (by omega) (by decide) _
  exact toNat_or_bitAt fail_field (by omega) (by decide) _

theorem res0Word_toNat (r : Res0) : (res0Word r).toNat =
    r.ver.toNat + 256 * r.payLen.toNat + 65536 * r.tplIdx.toNat + 1048576 * bitNat r.tplHit := by
  have hver := r.ver.isLt
  have hlen := r.payLen.isLt
  have hidx := r.tplIdx.isLt
  have len_field : (r.ver.setWidth 32 ||| r.payLen.setWidth 32 <<< 8 : Word).toNat =
      r.ver.toNat + 256 * r.payLen.toNat := toNat_or_setWidth (toNat_byteWord _) (by omega) (by decide) _
  have idx_field : (r.ver.setWidth 32 ||| r.payLen.setWidth 32 <<< 8 ||| r.tplIdx.setWidth 32 <<< 16 : Word).toNat =
      r.ver.toNat + 256 * r.payLen.toNat + 65536 * r.tplIdx.toNat :=
    toNat_or_setWidth len_field (by omega) (by decide) _
  exact toNat_or_bitAt idx_field (by omega) (by decide) _

theorem templateWord_toNat (t : Template) :
    (templateWord t).toNat = t.payLen.toNat + 256 * t.version.toNat + 2147483648 * bitNat t.valid := by
  have hlen := t.payLen.isLt
  have hver := t.version.isLt
  have ver_field : (t.payLen.setWidth 32 ||| t.version.setWidth 32 <<< 8 : Word).toNat =
      t.payLen.toNat + 256 * t.version.toNat := toNat_or_setWidth (toNat_byteWord _) (by omega) (by decide) _
  exact toNat_or_bitAt ver_field (by omega) (by decide) _

/-! ### Reads of an idle block -/

/-- What a place reads as does not depend on the schedule. -/
theorem readValue_schedule (s : State) (pending : List Event) (p : Target) :
    readValue { s with pending := pending } p = readValue s p := by
  cases p <;> rfl

/-- An idle block out of reset answers a 4-byte read of a register with the register's word (R65). -/
theorem readsAs_of_target {s : State} (hreset : s.inReset = false) (hidle : s.phase = .idle) {off : Offset}
    {p : Target} (hp : target off .word = some p) {n : Nat} (hn : (readValue s p).toNat = n) : ReadsAs s off n := by
  refine ⟨{ s with pending := [], resp := some (.readOk (readValue s p)) }, readValue s p, ?_, ⟨rfl, rfl⟩, hn⟩
  have hread := hostRead_accepted (readTarget_of_idle (s := { s with pending := [] }) hidle hp)
  rw [step_read (s := { s with pending := [.read off .word] }) hreset rfl, hread, readValue_schedule]

/-- Settles O44: each offset selects its register, and each register's word is the sum of its fields. -/
theorem registerReadValues : Obligations.RegisterReadValues := by
  intro s hreset hidle
  have reads {off : Offset} {p : Target} {n : Nat} (hp : target off .word = some p)
      (hn : (readValue s p).toNat = n) : ReadsAs s off n := readsAs_of_target hreset hidle hp hn
  have hstatus : (statusWord s).toNat = 2 * bitNat s.done + 4 * bitNat s.fail + 8 * bitNat s.hfault := by
    simp [statusWord_toNat, busy, hidle]
  have tpl_place : ∀ i : Fin 16, target (BitVec.ofNat 9 (0x040 + 4 * i.val)) .word = some (.tpl i) := by decide
  exact ⟨reads (p := .id) rfl rfl, reads (p := .ctrl) rfl (ctrlWord_toNat s), reads (p := .cmd) rfl rfl,
    reads (p := .status) rfl hstatus, reads (p := .err) rfl (toNat_byteWord _), reads (p := .ilen) rfl (toNat_byteWord _),
    reads (p := .hlen) rfl (toNat_byteWord _), reads (p := .olen) rfl (toNat_byteWord _),
    reads (p := .res0) rfl (res0Word_toNat s.res0),
    reads (p := .resid) rfl (BitVec.toNat_setWidth_of_le (by decide)),
    fun i => reads (tpl_place i) (templateWord_toNat _)⟩

/-- Settles O54: the reset values, the ID read by `readsAs_of_target`, and both resets by `resetBlock`. -/
theorem resetState : Obligations.ResetState :=
  ⟨rfl, rfl, rfl, rfl, rfl, rfl, rfl, rfl, rfl, rfl, rfl, rfl, rfl, by decide, rfl,
    readsAs_of_target (p := .id) rfl rfl rfl rfl, rfl, fun _ => rfl⟩

end Sys2Proof.Machine
end

section
/-! PROOFS. A running command does not see a CTRL write (R25, R231): the command's completion from a state and from the
same state with other values of IE, TPLCHK and the port's answer differ in these three alone. -/

namespace Sys2Proof.Machine

/-- The state after an accepted CTRL write of `v` with bit 31 clear (R25, R66). -/
def ctrlWritten (v : Word) (s : State) : State :=
  { s with ie := v.getLsbD 0, tplchk := v.getLsbD 1, resp := some .writeOk }

section
variable (v : Word) {s : State}

/-- The three fields are no operand of a running command: it uses the engine's private copy of TPLCHK (R231). -/
theorem sameNamedOperands_ctrlWritten {w : Word} {tc : Bool} (hrun : s.phase = .run w tc) (i : Instr) :
    SameNamedOperands i s (ctrlWritten v s) := by
  have input (bound : Nat) : SameInput bound s (ctrlWritten v s) := ⟨rfl, fun _ _ _ => rfl⟩
  have hrun' : (ctrlWritten v s).phase = .run w tc := hrun
  have templates : SameTemplates s (ctrlWritten v s) :=
    ⟨(sampledTplchk_run hrun).trans (sampledTplchk_run hrun').symm, fun _ => rfl⟩
  have hrp : SamePrefix s (ctrlWritten v s) := ⟨rfl, fun _ _ _ _ => rfl⟩
  cases i with
  | nop => trivial
  | b58cDec => exact ⟨input _, templates⟩
  | b32Polymod | b32Cksum | b32Enc => exact ⟨input _, hrp⟩
  | movO2I off => exact ⟨rfl, fun _ _ _ => rfl⟩
  | b58cEnc | b58Enc | b58Dec | hash256 | cksum4 | b32Group | b32Ungroup => exact input _

/-- Runs that complete alike from states that differ in the three fields leave states that differ in them alone. -/
theorem SameEnding.ctrlWritten {t : State} {o : Host.Outcome State Fault Refusal}
    (h : SameEnding s (ctrlWritten v s) (.next t) o) : o = .next (ctrlWritten v t) := by
  cases h <;> rfl

theorem exec_ctrlWritten {w : Word} {tc : Bool} (hrun : s.phase = .run w tc) {i : Instr} {t : State}
    (h : exec i s = .next t) : exec i (ctrlWritten v s) = .next (ctrlWritten v t) := by
  cases hw : writesResults i with
  | true =>
    have hend := exec_sameEnding hw (sameNamedOperands_ctrlWritten v hrun i)
    rw [h] at hend
    exact hend.ctrlWritten
  | false =>
    cases i with
    | nop => cases h; rfl
    | movO2I off =>
      rcases execMovO2I_cases off s with ⟨hl, hm⟩ | ⟨hl, hm⟩ <;> cases hm.symm.trans h
      · exact if_pos hl
      · exact if_neg (Nat.not_lt.2 hl)
    | _ => cases hw

/-- The completion of a running command does not see the three fields (R231, R232). -/
theorem engineTurn_ctrlWritten {w : Word} {tc : Bool} (hrun : s.phase = .run w tc) : ∃ t, engineTurn s = .next t ∧
    engineTurn (ctrlWritten v s) = .next (ctrlWritten v t) := by
  have turn {u : State} (hu : u.phase = .run w tc) : engineTurn u = runCommand w u := by rw [engineTurn, hu]
  have hrun' : (ctrlWritten v s).phase = .run w tc := hrun
  rw [turn hrun, turn hrun', runCommand, runCommand]
  cases decodeWord w with
  | illegal r => exact ⟨_, rfl, rfl⟩
  | command i =>
    obtain ⟨t, ht⟩ := exec_answers i s
    exact ⟨t, ht, exec_ctrlWritten v hrun ht⟩

end

/-- A CTRL write with bit 31 clear is accepted in every phase (R25, R66, R68). -/
theorem step_writeCtrl {s : State} {v : Word} {rest : List Event} (hreset : s.inReset = false)
    (hv : v.getLsbD 31 = false) (hnext : s.pending = .write 0x004 .word v :: rest) :
    step s = .next (ctrlWritten v { s with pending := rest }) := by
  rw [step_write hreset hnext, hostWrite_accepted (writeTarget_ctrl _), writeValue, writeCtrl,
    if_neg (Bool.eq_false_iff.1 hv), ctrlWritten]

/-- Settles O51: the write gives the state `ctrlWritten`, and the completion does not see what it changed. -/
theorem ctrlWriteKeepsRunningCommand : Obligations.CtrlWriteKeepsRunningCommand := by
  intro s w tc v rest hreset hrun hv
  have hwrite := step_writeCtrl (s := { s with pending := .write 0x004 .word v :: .clk true :: rest }) hreset hv rfl
  have hedge := step_completingEdge (s := { s with pending := .clk true :: rest }) hreset rfl
  have hedge_written := step_completingEdge (s := ctrlWritten v { s with pending := .clk true :: rest }) hreset rfl
  obtain ⟨t, hplain, hwritten⟩ := engineTurn_ctrlWritten v (s := { s with pending := rest }) hrun
  exact ⟨_, ctrlWritten v t, t, hwrite, rfl, sampledTplchk_run hrun, hedge_written.trans hwritten,
    hedge.trans hplain, rfl, rfl, rfl⟩

end Sys2Proof.Machine
end

section
/-! PROOFS. Every step keeps the canonical form of the memory (R60, R61): a success stores at most 128 bytes in OBUF,
MOV.O2I stores inside IBUF, and a host write stores a buffer byte. -/

namespace Sys2Proof.Machine

theorem memInv_completion {s t : State} (h : Completion s t) (hs : MemInv s) : MemInv t := by
  cases h with
  | bare e => exact wf_complete e hs
  | move off hfits =>
    refine wf_writeBytes hs fun i hi => (isBuffer_iff _).2 ?_
    rw [outputString_length] at hi
    simp only [ibufBase]
    omega
  | success bs r0 rid hlen hr0 => exact wf_succeed r0 rid hs hlen
  | failure e r0 hr0 => exact wf_failKeeping e r0 hs

theorem memInv_effect {cause : Prop} {s t : State} (h : Effect cause s t) (hs : MemInv s) : MemInv t := by
  cases h with
  | keep | refuse | configure | clearDone | start => exact hs
  | reset hcause => exact wf_resetBlock s
  | storeByte a b hbuf hin => exact wf_writeByte hs hbuf
  | completion hc => exact memInv_completion hc hs

/-- Settles O56: every effect of a step keeps the canonical form; what a completion stores ends with its buffer. -/
theorem stepKeepsMemoryCanonical : Obligations.StepKeepsMemoryCanonical :=
  fun _ _ => step_keeps (fun h hs => by cases h; exact hs) memInv_effect

end Sys2Proof.Machine
end

section
/-! PROOFS. The accesses of the register port (R61 to R68): which are accepted when the block is idle and which while a
command runs, what each answers, what it changes and what it leaves as it was. -/

namespace Sys2Proof.Machine

/-! ### Accepted and refused accesses -/

section
variable {s : State} {off : Offset} {size : Size} {v : Word} {p : Target}

theorem acceptedRead_hostRead (h : readTarget s off size = some p) :
    AcceptedRead s (hostRead off size s) (readValue s p) := by
  rw [hostRead_accepted h]
  exact ⟨rfl, rfl⟩

theorem refusedRead_hostRead (h : readTarget s off size = none) : RefusedRead s (hostRead off size s) := by
  rw [hostRead, h]
  exact ⟨rfl, ⟨_, rfl⟩, rfl⟩

theorem hostWrite_refused (h : writeTarget s off size = none) : hostWrite off size v s = refuseWrite s := by
  rw [hostWrite, h]

theorem refusedWrite_hostWrite (h : writeTarget s off size = none) : RefusedWrite s (hostWrite off size v s) := by
  rw [hostWrite_refused h]
  exact ⟨rfl, rfl, rfl⟩

/-- A 1-byte access selects a buffer byte or nothing (R64). -/
theorem target_byte (h : target off .byte = some p) : p = .buffer off.toNat := by
  simp only [target, Option.ite_none_right_eq_some, Option.some.injEq] at h
  exact h.2.symm

theorem target_byte_of_isBuffer (h : isBuffer off.toNat = true) : target off .byte = some (.buffer off.toNat) :=
  if_pos h

/-- An idle block accepts a write to every place that is not read-only (R66). -/
theorem writeTarget_of_idle (hidle : s.phase = .idle) (h : target off size = some p) (hw : readOnly p = false) :
    writeTarget s off size = some p := by
  simp [writeTarget, h, hw, busy, hidle]

/-! ### While a command runs -/

/-- The places that may be read while BUSY, by offset and size (R61, R68). -/
theorem filter_target_readableWhileBusy (off : Offset) (size : Size) :
    (target off size).filter readableWhileBusy =
      if size = .word ∧ off = 0x000 then some .id
      else if size = .word ∧ off = 0x004 then some .ctrl
      else if size = .word ∧ off = 0x008 then some .cmd
      else if size = .word ∧ off = 0x00C then some .status
      else none := by
  revert off
  cases size <;> decide +kernel

theorem readTarget_of_running {w : Word} {tc : Bool} (hrun : s.phase = .run w tc) :
    readTarget s off size = (target off size).filter readableWhileBusy := by
  simp [readTarget, busy, hrun]

/-- While a command runs a write to any place but CTRL is refused (R68). -/
theorem writeTarget_of_running {w : Word} {tc : Bool} (hrun : s.phase = .run w tc)
    (hne : ¬ (size = .word ∧ off = 0x004)) : writeTarget s off size = none := by
  refine Option.eq_none_iff_forall_ne_some.2 fun p hp => hne ?_
  obtain ⟨htarget, hacc⟩ := Option.filter_eq_some_iff.1 hp
  have hwritable : writableWhileBusy p = true := by simpa [busy, hrun] using (Bool.and_eq_true_iff.1 hacc).2
  cases p with
  | ctrl => exact target_ctrl htarget
  | _ => cases hwritable

end

/-- A CTRL write clears HFAULT exactly if it is a soft reset (R25, R283). -/
theorem writeCtrl_hfault (v : Word) (s : State) : (writeCtrl v s).hfault = (s.hfault && !v.getLsbD 31) := by
  rw [writeCtrl]
  cases v.getLsbD 31 <;> simp

theorem writeCtrl_pending (v : Word) (s : State) : (writeCtrl v s).pending = s.pending := by
  rw [writeCtrl]
  split <;> rfl

/-- Settles O42: the reads by the list of places readable while BUSY; of the writes only that of CTRL is accepted. -/
theorem busyAccesses : Obligations.BusyAccesses := by
  intro s w tc off size v rest hreset hrun
  have hrun' : State.phase { s with pending := rest } = .run w tc := hrun
  refine ⟨fun hnext => ⟨_, step_read hreset hnext, ?_⟩, fun hnext => ⟨_, step_write hreset hnext, ?_⟩⟩
  · have hplace := (readTarget_of_running (off := off) (size := size) hrun').trans
      (filter_target_readableWhileBusy off size)
    split_ifs at hplace ⊢
    · exact acceptedRead_hostRead hplace
    · exact acceptedRead_hostRead hplace
    · exact acceptedRead_hostRead hplace
    · exact acceptedRead_hostRead hplace
    · exact refusedRead_hostRead hplace
  · split_ifs with hctrl
    · obtain ⟨rfl, rfl⟩ := hctrl
      rw [hostWrite_accepted (writeTarget_ctrl _)]
      exact ⟨rfl, writeCtrl_hfault v _, writeCtrl_pending v _⟩
    · exact refusedWrite_hostWrite (writeTarget_of_running hrun' hctrl)

/-! ### Reads have no side effect -/

/-- Settles O43: a read is accepted or refused by `hostRead_cases`, and a 1-byte read selects its own buffer byte. -/
theorem readsHaveNoSideEffect : Obligations.ReadsHaveNoSideEffect := by
  intro s off size rest hreset hnext
  refine ⟨_, step_read hreset hnext, ?_, fun hsize hidle hrange => ?_⟩
  · rcases hostRead_cases off size { s with pending := rest } with ⟨hp, -⟩ | ⟨p, hp, -⟩
    · exact .inr (refusedRead_hostRead hp)
    · refine .inl ⟨_, acceptedRead_hostRead hp, fun hsize => ?_⟩
      subst hsize
      rw [target_byte (Option.filter_eq_some_iff.1 hp).1]
      rfl
  · subst hsize
    have hbuf : isBuffer off.toNat = true := (isBuffer_iff _).2 (by omega)
    exact acceptedRead_hostRead (s := { s with pending := rest })
      (readTarget_of_idle hidle (target_byte_of_isBuffer hbuf))

/-! ### Writes to an idle block -/

/-- What a write does does not depend on the schedule, and it leaves the schedule alone. -/
theorem writeValue_schedule (v : Word) (s : State) (pending : List Event) (p : Target) :
    writeValue v { s with pending := pending } p = { writeValue v s p with pending := pending } := by
  cases p with
  | ctrl =>
    simp only [writeValue, writeCtrl]
    split <;> rfl
  | status =>
    simp only [writeValue, writeStatus]
    split <;> rfl
  | _ => rfl

/-- An idle block out of reset accepts a write to a place that is not read-only (R66). -/
theorem writesTo_of_target {s : State} (hreset : s.inReset = false) (hidle : s.phase = .idle) {off : Offset}
    {size : Size} {p : Target} (v : Word) (hp : target off size = some p) (hw : readOnly p = false) :
    WritesTo s off size v (writeValue v s p) := by
  have hwrite := hostWrite_accepted (v := v) (writeTarget_of_idle (s := { s with pending := [] }) hidle hp hw)
  rw [WritesTo, step_write (s := { s with pending := [.write off size v] }) hreset rfl, hwrite, writeValue_schedule]

theorem writeCtrl_of_not_srst {v : Word} (hv : v.getLsbD 31 = false) (s : State) :
    writeCtrl v s = { s with ie := v.getLsbD 0, tplchk := v.getLsbD 1 } :=
  if_neg (Bool.eq_false_iff.1 hv)

/-- A STATUS write clears DONE if bit 1 is set and does nothing else (R27). -/
theorem writeStatus_eq (v : Word) (s : State) : writeStatus v s = { s with done := s.done && !v.getLsbD 1 } := by
  rw [writeStatus]
  cases v.getLsbD 1 <;> simp

/-- The byte a place takes from a word is its bits 7:0 (R66). -/
theorem setWidth_eq_low_byte (v : Word) : v.setWidth 8 = v.extractLsb' 0 8 :=
  BitVec.setWidth_eq_extractLsb' (by decide)

/-- The offset of TPL[i] selects entry i (R61). -/
theorem target_tpl : ∀ i : Fin 16, target (BitVec.ofNat 9 (0x040 + 4 * i.val)) .word = some (.tpl i) := by decide

/-- Settles O45: each offset selects its register, and each write is the effect of its place. -/
theorem registerWriteEffects : Obligations.RegisterWriteEffects := by
  intro s v hreset hidle
  have writes {off : Offset} {p : Target} (hp : target off .word = some p) (hw : readOnly p = false) :
      WritesTo s off .word v (writeValue v s p) := writesTo_of_target hreset hidle v hp hw
  rw [← writeStatus_eq, ← setWidth_eq_low_byte]
  refine ⟨fun hv => ?_, writes (p := .status) rfl rfl, writes (p := .ilen) rfl rfl, writes (p := .hlen) rfl rfl,
    fun i => ?_⟩
  · rw [← writeCtrl_of_not_srst hv]
    exact writes (p := .ctrl) rfl rfl
  · rw [setWidth_eq_low_byte]
    exact writes (target_tpl i) rfl

/-! ### Buffer bytes of an idle block -/

/-- The state after an accepted write of a buffer byte (R64, R66). -/
def byteWritten (a : Nat) (v : Word) (s : State) : State :=
  { writeByte a (v.setWidth 8) s with resp := some .writeOk }

theorem readByte_byteWritten_same (a : Nat) (v : Word) (s : State) :
    readByte (byteWritten a v s) a = v.extractLsb' 0 8 :=
  (readByte_writeByte_same s a _).trans (setWidth_eq_low_byte v)

theorem readByte_byteWritten_other {a x : Nat} (v : Word) (s : State) (h : x ≠ a) :
    readByte (byteWritten a v s) x = readByte s x :=
  readByte_writeByte_other s _ h

section
variable {s : State} {off : Offset} {v : Word} {rest : List Event}

theorem step_write_buffer (hreset : s.inReset = false) (hidle : s.phase = .idle)
    (hnext : s.pending = .write off .byte v :: rest) (hbuf : isBuffer off.toNat = true)
    (hin : isObuf off.toNat = false) : step s = .next (byteWritten off.toNat v { s with pending := rest }) := by
  rw [step_write hreset hnext, hostWrite_accepted (s := { s with pending := rest })
    (writeTarget_of_idle hidle (target_byte_of_isBuffer hbuf) hin)]
  rfl

theorem step_read_buffer (hreset : s.inReset = false) (hidle : s.phase = .idle)
    (hnext : s.pending = .read off .byte :: rest) (hbuf : isBuffer off.toNat = true) :
    step s = .next { s with
      pending := rest, resp := some (.readOk ((readByte s off.toNat).setWidth 32)) } := by
  rw [step_read hreset hnext, hostRead_accepted (s := { s with pending := rest })
    (readTarget_of_idle hidle (target_byte_of_isBuffer hbuf))]
  rfl

end

/-- Settles O46: the write leaves the state `byteWritten`, in which the byte, and so the read, is v[7:0]. -/
theorem bufferWriteThenRead : Obligations.BufferWriteThenRead := by
  intro s off v hreset hidle hrange
  have hbuf : isBuffer off.toNat = true := (isBuffer_iff _).2 (by omega)
  have hin : isObuf off.toNat = false := Bool.eq_false_iff.2 fun hobuf => by
    have := (isObuf_iff _).1 hobuf
    omega
  refine ⟨_, _, step_write_buffer hreset hidle rfl hbuf hin, rfl, readByte_byteWritten_same ..,
    fun a ha => readByte_byteWritten_other v _ ha, rfl, step_read_buffer hreset hidle rfl hbuf, ?_⟩
  rw [readByte_byteWritten_same]

end Sys2Proof.Machine
end

section
/-! PROOFS. An access while a command runs does not alter the command's outcome (R67, R255): it changes at most HFAULT
and the port's answer, and no completion sees these. -/

namespace Sys2Proof.Machine

/-- The state with other values of HFAULT, the port's answer and its count of refused reads. -/
def answered (hfault : Bool) (resp : Option Response) (portDraw : Nat) (s : State) : State :=
  { s with hfault := hfault, resp := resp, portDraw := portDraw }

section
variable (hfault : Bool) (resp : Option Response) (portDraw : Nat)

/-- The three fields are no operand of any command (R39). -/
theorem sameNamedOperands_answered (i : Instr) (s : State) :
    SameNamedOperands i s (answered hfault resp portDraw s) := by
  have input (bound : Nat) : SameInput bound s (answered hfault resp portDraw s) := ⟨rfl, fun _ _ _ => rfl⟩
  have hrp : SamePrefix s (answered hfault resp portDraw s) := ⟨rfl, fun _ _ _ _ => rfl⟩
  cases i with
  | nop => trivial
  | b58cDec => exact ⟨input _, rfl, fun _ => rfl⟩
  | b32Polymod | b32Cksum | b32Enc => exact ⟨input _, hrp⟩
  | movO2I off => exact ⟨rfl, fun _ _ _ => rfl⟩
  | b58cEnc | b58Enc | b58Dec | hash256 | cksum4 | b32Group | b32Ungroup => exact input _

/-- Runs that complete alike from states that differ in the three fields leave states that differ in them alone. -/
theorem SameEnding.answered {s t : State} {o : Host.Outcome State Fault Refusal}
    (h : SameEnding s (answered hfault resp portDraw s) (.next t) o) :
    o = .next (answered hfault resp portDraw t) := by
  cases h <;> rfl

theorem exec_answered {i : Instr} {s t : State} (h : exec i s = .next t) :
    exec i (answered hfault resp portDraw s) = .next (answered hfault resp portDraw t) := by
  cases hw : writesResults i with
  | true =>
    have hend := exec_sameEnding hw (sameNamedOperands_answered hfault resp portDraw i s)
    rw [h] at hend
    exact hend.answered
  | false =>
    cases i with
    | nop => cases h; rfl
    | movO2I off =>
      rcases execMovO2I_cases off s with ⟨hl, hm⟩ | ⟨hl, hm⟩ <;> cases hm.symm.trans h
      · exact if_pos hl
      · exact if_neg (Nat.not_lt.2 hl)
    | _ => cases hw

/-- No completion, of a command or of an illegal word, sees the three fields (R232, R238). -/
theorem runCommand_answered (w : Word) (s : State) : ∃ t, runCommand w s = .next t ∧
    runCommand w (answered hfault resp portDraw s) = .next (answered hfault resp portDraw t) := by
  rw [runCommand, runCommand]
  cases decodeWord w with
  | illegal r => exact ⟨_, rfl, rfl⟩
  | command i =>
    obtain ⟨t, ht⟩ := exec_answers i s
    exact ⟨t, ht, exec_answered hfault resp portDraw ht⟩

end

section
variable {s : State} {w : Word} {tc : Bool} {rest : List Event}

/-- A completing edge completes the running command (R232, R290). -/
theorem step_completes (hreset : s.inReset = false) (hrun : s.phase = .run w tc)
    (hnext : s.pending = .clk true :: rest) : step s = runCommand w { s with pending := rest } := by
  rw [step_completingEdge hreset hnext, engineTurn, hrun]

/-- A read changes at most the three fields (R65, R67). -/
theorem hostRead_answered (off : Offset) (size : Size) (s : State) :
    ∃ hfault resp portDraw, hostRead off size s = answered hfault resp portDraw s := by
  rcases hostRead_cases off size s with ⟨-, hr⟩ | ⟨p, -, hr⟩
  · exact ⟨_, _, _, hr⟩
  · exact ⟨s.hfault, _, s.portDraw, hr⟩

/-- While a command runs an access but a CTRL write changes at most the three fields (R67, R68). -/
theorem step_access_answered {e : Event} (hreset : s.inReset = false) (hrun : s.phase = .run w tc)
    (hnext : s.pending = e :: rest)
    (haccess : (∃ off size, e = .read off size) ∨
      ∃ off size v, e = .write off size v ∧ ¬ (off = 0x004 ∧ size = .word)) :
    ∃ hfault resp portDraw, step s = .next (answered hfault resp portDraw { s with pending := rest }) := by
  rcases haccess with ⟨off, size, rfl⟩ | ⟨off, size, v, rfl, hne⟩
  · obtain ⟨hfault, resp, portDraw, hread⟩ := hostRead_answered off size { s with pending := rest }
    exact ⟨hfault, resp, portDraw, by rw [step_read hreset hnext, hread]⟩
  · have hrefused : writeTarget { s with pending := rest } off size = none :=
      writeTarget_of_running hrun fun h => hne h.symm
    exact ⟨true, some .writeError, s.portDraw, by rw [step_write hreset hnext, hostWrite_refused hrefused]; rfl⟩

end

/-- Settles O52: the access leaves the state `answered`, and the completion does not see what it changed. -/
theorem accessKeepsRunningCommand : Obligations.AccessKeepsRunningCommand := by
  intro s w tc e rest hreset hrun haccess
  obtain ⟨hfault, resp, portDraw, hstep⟩ :=
    step_access_answered (s := { s with pending := e :: .clk true :: rest }) hreset hrun rfl haccess
  obtain ⟨t, hplain, hanswered⟩ := runCommand_answered hfault resp portDraw w { s with pending := rest }
  have hedge := step_completes (s := { s with pending := .clk true :: rest }) hreset hrun rfl
  have hedge_answered :=
    step_completes (s := answered hfault resp portDraw { s with pending := .clk true :: rest }) hreset hrun rfl
  exact ⟨_, _, t, hstep, hedge_answered.trans hanswered, hedge.trans hplain, rfl⟩

end Sys2Proof.Machine
end

section
/-! PROOFS. The command word as a number (R91, R95, R96, R101): its fields are digits of the number, the decoder answers
a command exactly at OP + 256 * ARG of that command, and that number is the word the encoder writes. So decoding and
encoding are inverse, and the illegal words are those that fail one of the decoder's checks (R98). -/

namespace Sys2Proof

/-! ### The fields of a word -/

theorem toNat_opField (w : Word) : (opField w).toNat = w.toNat % 16 := by
  simp [opField, BitVec.extractLsb'_toNat]

theorem toNat_z0Field (w : Word) : (z0Field w).toNat = w.toNat / 16 % 16 := by
  simp [z0Field, BitVec.extractLsb'_toNat, Nat.shiftRight_eq_div_pow]

theorem toNat_argField (w : Word) : (argField w).toNat = w.toNat / 256 % 256 := by
  simp [argField, BitVec.extractLsb'_toNat, Nat.shiftRight_eq_div_pow]

theorem toNat_z1Field (w : Word) : (z1Field w).toNat = w.toNat / 65536 := by
  have hw := w.isLt
  rw [z1Field, BitVec.extractLsb'_toNat, Nat.shiftRight_eq_div_pow]
  omega

theorem z0Field_eq_zero_iff (w : Word) : z0Field w = 0 ↔ w.toNat / 16 % 16 = 0 := by
  rw [← toNat_z0Field, ← BitVec.toNat_inj]
  rfl

theorem z1Field_eq_zero_iff (w : Word) : z1Field w = 0 ↔ w.toNat / 65536 = 0 := by
  rw [← toNat_z1Field, ← BitVec.toNat_inj]
  rfl

/-! ### What a command is written as -/

theorem instr_op_lt (i : Instr) : i.op < 16 := by
  cases i <;> simp [Instr.op]

theorem instr_arg_lt (i : Instr) : i.argNat.getD 0 < 256 := by
  cases i with
  | b58cEnc ver => exact ver.isLt
  | movO2I off => exact off.isLt
  | b32Cksum var | b32Enc var => cases var <;> decide
  | _ => decide

/-- The row of R101's table: the operation code, and the argument (0 where there is none) shifted by 8. -/
theorem encode_eq (i : Instr) :
    encode i = BitVec.ofNat 32 i.op + (BitVec.ofNat 32 (i.argNat.getD 0) <<< 8) := by
  cases i with
  | b58cEnc arg | movO2I arg => simp [encode, Instr.op, Instr.argNat]
  | b32Cksum var | b32Enc var => cases var <;> rfl
  | _ => rfl

theorem toNat_encode (i : Instr) : (encode i).toNat = i.op + 256 * i.argNat.getD 0 := by
  have hop := instr_op_lt i
  have harg := instr_arg_lt i
  rw [encode_eq, BitVec.toNat_add, BitVec.toNat_shiftLeft, BitVec.toNat_ofNat, BitVec.toNat_ofNat,
    Nat.shiftLeft_eq]
  omega

/-! ### The decoder's answers -/

theorem formatZ_eq_command {arg : Byte} {i j : Instr} (h : formatZ arg i = .command j) : i = j ∧ arg.toNat = 0 := by
  unfold formatZ at h
  split at h
  · cases h
  · simp_all

theorem formatA1_eq_command {arg : Byte} {i : Variant → Instr} {j : Instr} (h : formatA1 arg i = .command j) :
    i .bech32 = j ∧ arg.toNat = 0 ∨ i .bech32m = j ∧ arg.toNat = 1 := by
  have bit : ∀ arg : Byte, arg.extractLsb' 1 7 = 0 →
      varOf arg = .bech32 ∧ arg.toNat = 0 ∨ varOf arg = .bech32m ∧ arg.toNat = 1 := by decide
  unfold formatA1 at h
  split at h
  · cases h
  · rcases bit arg (not_not.1 ‹_›) with ⟨hvar, harg⟩ | ⟨hvar, harg⟩ <;> cases h <;> simp [hvar, harg]

/-- A command decodes from its own operation code and argument (R96). -/
theorem decodeOp_instr (i : Instr) :
    decodeOp (BitVec.ofNat 4 i.op) (BitVec.ofNat 8 (i.argNat.getD 0)) = .command i := by
  cases i with
  | b58cEnc arg | movO2I arg => simp [decodeOp, Instr.op, Instr.argNat]
  | b32Cksum var | b32Enc var => cases var <;> rfl
  | _ => rfl

/-- A command decodes from no other operation code and argument (R96). -/
theorem op_arg_of_decodeOp {op : BitVec 4} {arg : Byte} {i : Instr} (h : decodeOp op arg = .command i) :
    op.toNat = i.op ∧ arg.toNat = i.argNat.getD 0 := by
  unfold decodeOp at h
  split at h
  -- the branches of formats A8 and A1, the reserved codes, and those of format Z
  case h_2 | h_13 => cases h; exact ⟨‹_›, rfl⟩
  case h_11 | h_12 => obtain ⟨rfl, harg⟩ | ⟨rfl, harg⟩ := formatA1_eq_command h <;> exact ⟨‹_›, harg⟩
  case h_14 => cases h
  all_goals
    obtain ⟨rfl, harg⟩ := formatZ_eq_command h
    exact ⟨‹_›, harg⟩

theorem decodeOp_eq_command_iff {op : BitVec 4} {arg : Byte} {i : Instr} :
    decodeOp op arg = .command i ↔ op.toNat = i.op ∧ arg.toNat = i.argNat.getD 0 := by
  refine ⟨op_arg_of_decodeOp, fun ⟨hop, harg⟩ => ?_⟩
  rw [← decodeOp_instr i, ← hop, ← harg, BitVec.ofNat_toNat, BitVec.ofNat_toNat, BitVec.setWidth_eq,
    BitVec.setWidth_eq]

theorem decodeWord_eq_decodeOp {w : Word} (h1 : z1Field w = 0) (h0 : z0Field w = 0) :
    decodeWord w = decodeOp (opField w) (argField w) := by
  rw [decodeWord, if_neg (not_not.2 h1), if_neg (not_not.2 h0)]

/-- The decoder answers a command only when the must-be-zero fields are zero (R91, R96). -/
theorem decodeWord_eq_command_iff_fields {w : Word} {i : Instr} : decodeWord w = .command i ↔
    z1Field w = 0 ∧ z0Field w = 0 ∧ decodeOp (opField w) (argField w) = .command i := by
  refine ⟨fun h => ?_, fun ⟨h1, h0, h⟩ => decodeWord_eq_decodeOp h1 h0 ▸ h⟩
  unfold decodeWord at h
  split at h
  · cases h
  · split at h
    · cases h
    · exact ⟨not_not.1 ‹_›, not_not.1 ‹_›, h⟩

/-- The decoder answers a command exactly at the number OP + 256 * ARG of that command (R91, R96). -/
theorem decodeWord_eq_command_iff {w : Word} {i : Instr} :
    decodeWord w = .command i ↔ w.toNat = i.op + 256 * i.argNat.getD 0 := by
  have hop := instr_op_lt i
  have harg := instr_arg_lt i
  rw [decodeWord_eq_command_iff_fields, decodeOp_eq_command_iff, z1Field_eq_zero_iff, z0Field_eq_zero_iff,
    toNat_opField, toNat_argField]
  omega

/-! ### Decoding and encoding are inverse -/

/-- Settles O1: the word of a command has the one number that decodes to it. -/
theorem decodeOfEncode : Obligations.DecodeOfEncode := fun i _ =>
  decodeWord_eq_command_iff.2 (toNat_encode i)

/-- Settles O2: a word that decodes to a command has the number of the command's word. -/
theorem encodeOfDecode : Obligations.EncodeOfDecode := fun _ i h =>
  BitVec.eq_of_toNat_eq ((toNat_encode i).trans (decodeWord_eq_command_iff.1 h).symm)

/-- Settles O5: the decoder computes each answer. -/
theorem sampleWordsDecode : Obligations.SampleWordsDecode := by
  unfold Obligations.SampleWordsDecode
  decide

/-! ### Illegal words -/

theorem formatZ_illegal_iff {arg : Byte} {i : Instr} : (∃ r, formatZ arg i = .illegal r) ↔ arg.toNat ≠ 0 := by
  have zero : arg.toNat = 0 ↔ arg = 0 := BitVec.toNat_inj (y := 0)
  rw [ne_eq, zero, formatZ]
  split <;> simp_all

theorem formatA1_illegal_iff {arg : Byte} {i : Variant → Instr} :
    (∃ r, formatA1 arg i = .illegal r) ↔ arg.toNat / 2 ≠ 0 := by
  have high : arg.extractLsb' 1 7 = 0 ↔ arg.toNat / 2 = 0 := by revert arg; decide
  rw [ne_eq, ← high, formatA1]
  split <;> simp_all

/-- The last three causes of R98: a reserved operation code, and an argument its format does not allow. -/
theorem decodeOp_illegal_iff {op : BitVec 4} {arg : Byte} : (∃ r, decodeOp op arg = .illegal r) ↔
    0xD ≤ op.toNat ∨ (op.toNat ∈ [0x0, 0x2, 0x3, 0x4, 0x5, 0x6, 0x7, 0x8, 0x9] ∧ arg.toNat ≠ 0) ∨
      (op.toNat ∈ [0xA, 0xB] ∧ arg.toNat / 2 ≠ 0) := by
  unfold decodeOp
  split
  -- the branches of formats A8 and A1, the reserved codes, and those of format Z
  case h_2 h | h_13 h => simp [h]
  case h_11 h | h_12 h => rw [formatA1_illegal_iff, h]; simp
  case h_14 =>
    simp only [imp_false] at *
    exact ⟨fun _ => .inl (by omega), fun _ => ⟨_, rfl⟩⟩
  all_goals
    rename_i h
    rw [formatZ_illegal_iff, h]
    simp

theorem decodeWord_illegal_iff {w : Word} : (∃ r, decodeWord w = .illegal r) ↔
    z1Field w ≠ 0 ∨ z0Field w ≠ 0 ∨ ∃ r, decodeOp (opField w) (argField w) = .illegal r := by
  unfold decodeWord
  split
  · simp_all
  · split <;> simp_all

/-- Settles O4: the decoder's checks, each read as arithmetic on the word. -/
theorem illegalWordsExactly : Obligations.IllegalWordsExactly := by
  intro w
  have harg : w.toNat / 256 % 256 / 2 = w.toNat / 512 % 128 := by omega
  rw [decodeWord_illegal_iff, decodeOp_illegal_iff, ne_eq, z1Field_eq_zero_iff, ne_eq, z0Field_eq_zero_iff,
    toNat_opField, toNat_argField, harg]

end Sys2Proof
end

section
/-! PROOFS. The rows of the opcode map (R92, R95) against the commands: a row's commands take exactly the arguments its
format allows. The assembler accepts these (R101), and the row's mask selects their words (R92). -/

namespace Sys2Proof

/-! ### The arguments of a format -/

/-- The format has an argument exactly where one is given, and it is in range (R92, R101). -/
def Format.Admits (f : Format) (a : Option Nat) : Prop :=
  f.argBound.isSome = a.isSome ∧ ∀ bound ∈ f.argBound, ∀ n ∈ a, n < bound

theorem admits_z {a : Option Nat} : Format.z.Admits a ↔ a = none := by
  cases a <;> simp [Format.Admits, Format.argBound]

theorem admits_a8 {a : Option Nat} : Format.a8.Admits a ↔ ∃ v : Byte, a = some v.toNat := by
  cases a with
  | none => simp [Format.Admits, Format.argBound]
  | some n =>
    simp only [Format.Admits, Format.argBound, Option.isSome_some, Option.mem_some_iff, forall_eq', true_and,
      Option.some_inj]
    exact ⟨fun h => ⟨BitVec.ofNat 8 n, (Nat.mod_eq_of_lt h).symm⟩, fun ⟨v, hv⟩ => hv ▸ v.isLt⟩

theorem admits_a1 {a : Option Nat} : Format.a1.Admits a ↔ a = some 0 ∨ a = some 1 := by
  cases a with
  | none => simp [Format.Admits, Format.argBound]
  | some n =>
    have bit : n < 2 ↔ n = 0 ∨ n = 1 := by omega
    simpa [Format.Admits, Format.argBound] using bit

/-- The mask of the argument byte: the bits the format requires to be 0 (R92). -/
def Format.argMask : Format → Byte
  | .z => 0xFF
  | .a8 => 0x00
  | .a1 => 0xFE

/-- The argument bytes a mask lets through are the arguments of its format (R92). -/
theorem and_argMask_eq_zero_iff (f : Format) (arg : Byte) :
    arg &&& f.argMask = 0 ↔ ∃ a, f.Admits a ∧ arg.toNat = a.getD 0 := by
  cases f with
  | z =>
    have all : ∀ arg : Byte, arg &&& 0xFF = 0 ↔ arg.toNat = 0 := by decide
    simpa [Format.argMask, admits_z] using all arg
  | a8 =>
    simp only [Format.argMask, admits_a8]
    exact ⟨fun _ => ⟨_, ⟨arg, rfl⟩, rfl⟩, fun _ => BitVec.and_zero⟩
  | a1 =>
    have high : ∀ arg : Byte, arg &&& 0xFE = 0 ↔ arg.toNat = 0 ∨ arg.toNat = 1 := by decide
    simpa [Format.argMask, admits_a1, or_and_right, exists_or] using high arg

theorem Format.Admits.getD_lt {f : Format} {a : Option Nat} (h : f.Admits a) : a.getD 0 < 256 := by
  cases f with
  | z => simp [admits_z.1 h]
  | a8 => obtain ⟨v, rfl⟩ := admits_a8.1 h; exact v.isLt
  | a1 => rcases admits_a1.1 h with rfl | rfl <;> decide

/-! ### The words a row selects -/

theorem word_eq_iff {v w : Word} : v = w ↔ z1Field v = z1Field w ∧ argField v = argField w ∧
    z0Field v = z0Field w ∧ opField v = opField w := by
  simp only [← BitVec.toNat_inj, toNat_z1Field, toNat_argField, toNat_z0Field, toNat_opField]
  omega

/-- A mask keeps the operation code and the must-be-zero fields, and its own bits of the argument (R92). -/
theorem fields_and_mask (w : Word) (f : Format) :
    z1Field (w &&& f.mask) = z1Field w ∧ argField (w &&& f.mask) = argField w &&& f.argMask ∧
      z0Field (w &&& f.mask) = z0Field w ∧ opField (w &&& f.mask) = opField w := by
  simp only [z1Field, argField, z0Field, opField, BitVec.extractLsb'_and]
  have ones : z1Field f.mask = BitVec.allOnes 16 ∧ argField f.mask = f.argMask ∧
      z0Field f.mask = BitVec.allOnes 4 ∧ opField f.mask = BitVec.allOnes 4 := by
    cases f <;> decide
  obtain ⟨h1, harg, h0, hop⟩ := ones
  simp only [z1Field, argField, z0Field, opField] at h1 harg h0 hop
  simp only [h1, harg, h0, hop, BitVec.and_allOnes, and_self]

/-- A match value is its operation code zero-extended (R92). -/
theorem fields_match : ∀ op < 16, z1Field (BitVec.ofNat 32 op) = 0 ∧ argField (BitVec.ofNat 32 op) = 0 ∧
    z0Field (BitVec.ofNat 32 op) = 0 ∧ opField (BitVec.ofNat 32 op) = BitVec.ofNat 4 op := by
  decide

/-- The words a row selects are those of its operation code with an argument of its format (R92). -/
theorem and_mask_eq_iff {f : Format} {op : Nat} (hlt : op < 16) {w : Word} : w &&& f.mask = BitVec.ofNat 32 op ↔
    ∃ a, f.Admits a ∧ w.toNat = op + 256 * a.getD 0 := by
  obtain ⟨m1, marg, m0, mop⟩ := fields_match op hlt
  obtain ⟨w1, warg, w0, wop⟩ := fields_and_mask w f
  have hop : opField w = BitVec.ofNat 4 op ↔ w.toNat % 16 = op := by
    rw [← BitVec.toNat_inj, toNat_opField, BitVec.toNat_ofNat, Nat.mod_eq_of_lt hlt]
  rw [word_eq_iff, w1, warg, w0, wop, m1, marg, m0, mop, hop, z1Field_eq_zero_iff, z0Field_eq_zero_iff,
    and_argMask_eq_zero_iff, toNat_argField]
  constructor
  · rintro ⟨h1, ⟨a, ha, harg⟩, h0, hop⟩
    exact ⟨a, ha, by omega⟩
  · rintro ⟨a, ha, hw⟩
    have harg := ha.getD_lt
    exact ⟨by omega, ⟨a, ha, by omega⟩, by omega, by omega⟩

/-! ### The rows and the commands -/

theorem row_op_lt : ∀ r ∈ rows, r.op < 16 := by
  decide

/-- No two rows have one operation code (R95). -/
theorem row_eq_of_op_eq : ∀ r ∈ rows, ∀ r' ∈ rows, r.op = r'.op → r = r' := by
  decide

/-- No two rows have one mnemonic (R95). -/
theorem row_eq_of_mnemonic_eq : ∀ r ∈ rows, ∀ r' ∈ rows, r.mnemonic = r'.mnemonic → r = r' := by
  decide

/-- What passes the assembler's checks has a row with its operation code, whose format admits its argument (R101). -/
theorem exists_row_of_wf {c : AsmCommand} (h : c.wf = true) :
    ∃ r ∈ rows, r.op = c.op ∧ r.format.Admits c.arg := by
  simp only [AsmCommand.wf, Bool.and_eq_true, AsmCommand.opKnown, AsmCommand.argPresence, beq_iff_eq] at h
  obtain ⟨⟨hknown, hpresence⟩, hrange⟩ := h
  obtain ⟨f, hf⟩ := Option.isSome_iff_exists.1 hknown
  obtain ⟨r, hfind, rfl⟩ := Option.map_eq_some_iff.1 hf
  refine ⟨r, List.mem_of_find?_eq_some hfind, by simpa using List.find?_some hfind, ?_, fun bound hbound n hn => ?_⟩
  · simpa [hf] using hpresence
  · simpa [AsmCommand.argInRange, hf, Option.mem_def.1 hbound, Option.mem_def.1 hn] using hrange

/-- The argument of a command is one that the format of its row admits (R92, R95). -/
theorem instr_row_admits {r : Row} (hr : r ∈ rows) {i : Instr} (h : i.mnemonic = r.mnemonic) :
    r.op = i.op ∧ r.format.Admits i.argNat := by
  obtain ⟨r', hr', hop, hmn⟩ := instr_row i
  obtain ⟨q, hq, hqop, hadmits⟩ := exists_row_of_wf (instr_wf i)
  cases row_eq_of_mnemonic_eq r' hr' r hr (hmn.trans h)
  cases row_eq_of_op_eq q hq r hr (hqop.trans hop.symm)
  exact ⟨hop, hadmits⟩

theorem asm_eq_of_admits_z {i : Instr} {a : Option Nat} (hi : i.argNat = none) (ha : Format.z.Admits a) :
    i.asm = ⟨i.op, a⟩ := by
  rw [Instr.asm, hi, admits_z.1 ha]

/-- Every argument that the format of a row admits is that of a command of the row (R92, R95). -/
theorem exists_instr_of_admits {r : Row} (hr : r ∈ rows) {a : Option Nat} (ha : r.format.Admits a) :
    ∃ i : Instr, i.mnemonic = r.mnemonic ∧ i.asm = ⟨r.op, a⟩ := by
  simp only [rows, List.mem_cons, List.not_mem_nil, or_false] at hr
  rcases hr with rfl | rfl | rfl | rfl | rfl | rfl | rfl | rfl | rfl | rfl | rfl | rfl | rfl
  · exact ⟨.nop, rfl, asm_eq_of_admits_z rfl ha⟩
  · obtain ⟨ver, rfl⟩ := admits_a8.1 ha
    exact ⟨.b58cEnc ver, rfl, rfl⟩
  · exact ⟨.b58cDec, rfl, asm_eq_of_admits_z rfl ha⟩
  · exact ⟨.b58Enc, rfl, asm_eq_of_admits_z rfl ha⟩
  · exact ⟨.b58Dec, rfl, asm_eq_of_admits_z rfl ha⟩
  · exact ⟨.hash256, rfl, asm_eq_of_admits_z rfl ha⟩
  · exact ⟨.cksum4, rfl, asm_eq_of_admits_z rfl ha⟩
  · exact ⟨.b32Group, rfl, asm_eq_of_admits_z rfl ha⟩
  · exact ⟨.b32Ungroup, rfl, asm_eq_of_admits_z rfl ha⟩
  · exact ⟨.b32Polymod, rfl, asm_eq_of_admits_z rfl ha⟩
  · obtain rfl | rfl := admits_a1.1 ha
    exacts [⟨.b32Cksum .bech32, rfl, rfl⟩, ⟨.b32Cksum .bech32m, rfl, rfl⟩]
  · obtain rfl | rfl := admits_a1.1 ha
    exacts [⟨.b32Enc .bech32, rfl, rfl⟩, ⟨.b32Enc .bech32m, rfl, rfl⟩]
  · obtain ⟨off, rfl⟩ := admits_a8.1 ha
    exact ⟨.movO2I off, rfl, rfl⟩

/-- Settles O3: a row selects the words of its commands, and its operation code is no other row's. -/
theorem decodeFollowsOpcodeMap : Obligations.DecodeFollowsOpcodeMap := by
  refine ⟨fun w r hr => ?_, fun w r r' hr hr' h h' => ?_, rfl, rfl, rfl⟩
  · rw [and_mask_eq_iff (row_op_lt r hr)]
    constructor
    · rintro ⟨a, ha, hw⟩
      obtain ⟨i, hmn, hasm⟩ := exists_instr_of_admits hr ha
      obtain ⟨hop, harg⟩ := AsmCommand.mk.inj hasm
      exact ⟨i, decodeWord_eq_command_iff.2 (by rw [hop, harg, hw]), hmn⟩
    · rintro ⟨i, hi, hmn⟩
      obtain ⟨hop, ha⟩ := instr_row_admits hr hmn
      exact ⟨i.argNat, ha, by rw [hop, decodeWord_eq_command_iff.1 hi]⟩
  · obtain ⟨a, ha, hw⟩ := (and_mask_eq_iff (row_op_lt r hr)).1 (beq_iff_eq.1 h)
    obtain ⟨a', ha', hw'⟩ := (and_mask_eq_iff (row_op_lt r' hr')).1 (beq_iff_eq.1 h')
    have hlt := row_op_lt r hr
    have hlt' := row_op_lt r' hr'
    exact row_eq_of_op_eq r hr r' hr' (by omega)

/-- The assembler gives a word exactly when its checks pass (R101). -/
theorem assemble_isSome (c : AsmCommand) : (assemble c).isSome = c.wf := by
  unfold assemble
  split <;> simp_all

/-- Settles O6: what passes the assembler's checks is an operation code with an argument of its row's format. -/
theorem assemblerMatchesEncoder : Obligations.AssemblerMatchesEncoder := by
  refine ⟨fun i => ?_, fun c => ⟨fun h => ?_, ?_⟩⟩
  · rw [encode_eq]
    exact if_pos (instr_wf i)
  · obtain ⟨r, hr, hop, ha⟩ := exists_row_of_wf (assemble_isSome c ▸ h)
    obtain ⟨i, -, hasm⟩ := exists_instr_of_admits hr ha
    exact ⟨i, by rw [hasm, hop]⟩
  · rintro ⟨i, rfl⟩
    exact (assemble_isSome i.asm).trans (instr_wf i)

end Sys2Proof
end

section
/-! PROOFS. Completions in the terms of the statements (R8, R232, R250): what a success with an output string of at most
128 bytes leaves, and what a failure leaves. -/

namespace Sys2Proof.Machine

theorem complete_completed (e : ErrCode) (s : State) : Completed (complete e s) e :=
  ⟨rfl, by cases e <;> rfl, rfl, rfl⟩

/-- After `out` OLEN and OBUF are those of the string (R8). -/
theorem out_obufHolds {bs : List Byte} (hlen : bs.length ≤ 128) (s : State) : ObufHolds (out bs s) bs :=
  ⟨by rw [out_olen, BitVec.toNat_ofNat, Nat.mod_eq_of_lt (by omega)], readByte_out_inside s bs⟩

/-- A success with a string that fits OBUF (R232). -/
theorem succeed_succeeded {bs : List Byte} (hlen : bs.length ≤ 128) (r0 : Res0) (rid : Residue) (s : State) :
    Succeeded s (succeed bs r0 rid s) bs r0 rid := by
  obtain ⟨holen, hbytes⟩ := out_obufHolds hlen s
  refine ⟨complete_completed .ok _, ⟨holen, fun i hi => ?_⟩, rfl, rfl,
    ⟨rfl, rfl, rfl, rfl, rfl, rfl, rfl, rfl, rfl, rfl, rfl, rfl⟩, rfl, fun a ha => ?_⟩
  · rw [readByte_succeed, hbytes i hi]
  · rw [readByte_succeed, readByte_out_outside hlen s a ha]

/-- A failure leaves RES0 at the value it names (R250). -/
theorem failKeeping_failed (e : ErrCode) (r0 : Res0) (s : State) : Failed s (failKeeping e r0 s) e r0 := by
  refine ⟨complete_completed e _, rfl, rfl, rfl,
    ⟨rfl, rfl, rfl, rfl, rfl, rfl, rfl, rfl, rfl, rfl, rfl, rfl⟩, rfl, fun a ha => ?_⟩
  rw [readByte_failKeeping, readByte_out_outside (by decide) s a ha]

theorem failWith_failed (e : ErrCode) (s : State) : Failed s (failWith e s) e noRes0 :=
  failKeeping_failed e noRes0 s

end Sys2Proof.Machine
end

section
/-! PROOFS. Numerals in a base, most significant digit first (R121, R122): a list of digits is determined by its number
and its count of leading zeros. `numeral` is the form both conversions of spec/40_base58.md give. -/

namespace Sys2Proof.Machine

/-- The numeral of `n` in base `B`, most significant digit first, after `z` zeros. -/
def numeral (B z n : Nat) : List Nat := List.replicate z 0 ++ (Nat.digits B n).reverse

/-- How many leading digits are 0. -/
def leadingZeros (ds : List Nat) : Nat := (ds.takeWhile (· == 0)).length

theorem numeral_succ (B z n : Nat) : numeral B (z + 1) n = 0 :: numeral B z n := rfl

theorem leadingZeros_zero_cons (ds : List Nat) : leadingZeros (0 :: ds) = leadingZeros ds + 1 := by
  simp [leadingZeros]

theorem leadingZeros_cons_of_ne {d : Nat} (hd : d ≠ 0) (ds : List Nat) : leadingZeros (d :: ds) = 0 := by
  simp [leadingZeros, hd]

theorem numeral_lt {B z n : Nat} (hB : 1 < B) : ∀ d ∈ numeral B z n, d < B := by
  intro d hd
  rcases List.mem_append.1 hd with hzero | hdigit
  · rw [List.eq_of_mem_replicate hzero]
    omega
  · exact Nat.digits_lt_base hB (List.mem_reverse.1 hdigit)

/-- The zeros in front do not change the number. -/
theorem ofDigits_numeral (B z n : Nat) : Nat.ofDigits B (numeral B z n).reverse = n := by
  simp [numeral, Nat.ofDigits_append_replicate_zero, Nat.ofDigits_digits]

/-- A numeral without zeros in front starts with a digit other than 0. -/
theorem leadingZeros_numeral_zero (B n : Nat) : leadingZeros (numeral B 0 n) = 0 := by
  rcases Nat.eq_zero_or_pos n with rfl | hn
  · simp [numeral, leadingZeros]
  · have hne : Nat.digits B n ≠ [] := Nat.digits_ne_nil_iff_ne_zero.2 hn.ne'
    have hsplit := List.dropLast_append_getLast hne
    rw [numeral, ← hsplit]
    simpa using leadingZeros_cons_of_ne (Nat.getLast_digit_ne_zero B hn.ne') _

theorem leadingZeros_numeral (B z n : Nat) : leadingZeros (numeral B z n) = z := by
  induction z with
  | zero => exact leadingZeros_numeral_zero B n
  | succ z ih => rw [numeral_succ, leadingZeros_zero_cons, ih]

/-- A list of digits is the numeral of its number after its leading zeros. -/
theorem numeral_of_digits {B : Nat} (hB : 1 < B) {ds : List Nat} (hds : ∀ d ∈ ds, d < B) :
    numeral B (leadingZeros ds) (Nat.ofDigits B ds.reverse) = ds := by
  induction ds with
  | nil => simp [numeral, leadingZeros]
  | cons d ds ih =>
    rcases Nat.eq_zero_or_pos d with rfl | hd
    · rw [leadingZeros_zero_cons, List.reverse_cons, Nat.ofDigits_append_zero, numeral_succ,
        ih fun x hx => hds x (List.mem_cons_of_mem _ hx)]
    · have hlt : ∀ x ∈ (d :: ds).reverse, x < B := fun x hx => hds x (List.mem_reverse.1 hx)
      rw [leadingZeros_cons_of_ne hd.ne', numeral, Nat.digits_ofDigits B hB _ hlt (by simpa using hd.ne')]
      simp

/-- Reading digits one after the other gives the number of the numeral. -/
theorem foldl_digits_eq_ofDigits {α : Type} (B : Nat) (f : α → Nat) (t : List α) :
    t.foldl (fun n x => B * n + f x) 0 = Nat.ofDigits B (t.map f).reverse := by
  induction t using List.reverseRecOn with
  | nil => rfl
  | append_singleton t x ih =>
    rw [List.foldl_concat, ih, List.map_append, List.map_singleton, List.reverse_concat, Nat.ofDigits_cons,
      Nat.add_comm]

theorem leadingCount_eq_leadingZeros {x : Byte} {f : Byte → Nat} {t : List Byte}
    (h : ∀ c ∈ t, c = x ↔ f c = 0) : leadingCount x t = leadingZeros (t.map f) := by
  induction t with
  | nil => rfl
  | cons c t ih =>
    obtain ⟨hc, ht⟩ := List.forall_mem_cons.1 h
    by_cases hx : c = x
    · rw [List.map_cons, hc.1 hx, leadingZeros_zero_cons, ← ih ht]
      simp [leadingCount, hx]
    · rw [List.map_cons, leadingZeros_cons_of_ne (mt hc.2 hx)]
      simp [leadingCount, hx]

end Sys2Proof.Machine
end

section
/-! PROOFS. The two conversions of spec/40_base58.md on strings of every length: a byte string is a numeral in base
256, a text over the alphabet one in base 58, and each conversion keeps the number and the leading zeros (R121 to
R123). -/

namespace Sys2Proof.Machine

/-! ### The loops of R121 and R122 -/

/-- With enough turns the loop of R121 gives all digits. -/
theorem digits58_eq_digits {fuel n : Nat} (h : n < 58 ^ fuel) : digits58 fuel n [] = (Nat.digits 58 n).reverse := by
  induction fuel generalizing n with
  | zero => simp_all [digits58]
  | succ k ih =>
    rcases Nat.eq_zero_or_pos n with rfl | hn
    · simp [digits58]
    · have hdiv : n / 58 < 58 ^ k := Nat.div_lt_of_lt_mul (by rwa [Nat.pow_succ'] at h)
      rw [digits58, if_neg hn.ne', digits58_append, ih hdiv, Nat.digits_def' (by decide) hn, List.reverse_cons]

/-- With enough turns the loop of R122 gives all bytes. -/
theorem bytesOfNat_eq_digits {fuel n : Nat} (h : n < 256 ^ fuel) :
    bytesOfNat fuel n [] = (Nat.digits 256 n).reverse.map (BitVec.ofNat 8) := by
  induction fuel generalizing n with
  | zero => simp_all [bytesOfNat]
  | succ k ih =>
    rcases Nat.eq_zero_or_pos n with rfl | hn
    · simp [bytesOfNat]
    · have hdiv : n / 256 < 256 ^ k := Nat.div_lt_of_lt_mul (by rwa [Nat.pow_succ'] at h)
      rw [bytesOfNat, if_neg hn.ne', bytesOfNat_append, ih hdiv, Nat.digits_def' (by decide) hn, List.reverse_cons,
        List.map_append, List.map_singleton]

/-- Two turns for each byte are enough, since 256 ≤ 58 * 58. -/
theorem beNat_lt_pow58 (s : List Byte) : beNat s < 58 ^ (2 * s.length) :=
  calc beNat s < 256 ^ s.length := beNat_lt s
    _ ≤ (58 ^ 2) ^ s.length := by gcongr; decide
    _ = 58 ^ (2 * s.length) := (Nat.pow_mul ..).symm

theorem valueOf58_lt_pow256 (t : List Byte) : valueOf58 t < 256 ^ t.length :=
  calc valueOf58 t < 58 ^ t.length := foldl_digits_lt 58 digitOf digitOf_lt t
    _ ≤ 256 ^ t.length := by gcongr; decide

/-! ### Characters and digits -/

theorem a58_zero : a58 0 = ascii '1' := rfl

theorem a58_digitOf {c : Byte} (hc : (v58 c).isSome = true) : a58 (digitOf c) = c := by
  obtain ⟨d, hd⟩ := Option.isSome_iff_exists.1 hc
  simpa [digitOf, hd] using (a58_v58 hd).2

theorem digitOf_a58 {d : Nat} (hd : d < 58) : digitOf (a58 d) = d := by
  rw [digitOf, v58_a58 d hd, Option.getD_some]

/-- Of the characters of the alphabet only `'1'` is the digit 0 (R120). -/
theorem eq_one_iff_digitOf_eq_zero {c : Byte} (hc : (v58 c).isSome = true) : c = ascii '1' ↔ digitOf c = 0 := by
  constructor
  · rintro rfl
    rw [digitOf, v58_one, Option.getD_some]
  · intro hzero
    rw [← a58_digitOf hc, hzero, a58_zero]

/-! ### Strings as lists of digits -/

theorem beNat_eq_ofDigits (s : List Byte) : beNat s = Nat.ofDigits 256 (s.map BitVec.toNat).reverse :=
  foldl_digits_eq_ofDigits 256 BitVec.toNat s

theorem valueOf58_eq_ofDigits (t : List Byte) : valueOf58 t = Nat.ofDigits 58 (t.map digitOf).reverse :=
  foldl_digits_eq_ofDigits 58 digitOf t

theorem leadingCount_zero_eq (s : List Byte) : leadingCount 0 s = leadingZeros (s.map BitVec.toNat) :=
  leadingCount_eq_leadingZeros fun _ _ => BitVec.toNat_eq

theorem leadingCount_one_eq {t : List Byte} (ht : ∀ c ∈ t, (v58 c).isSome = true) :
    leadingCount (ascii '1') t = leadingZeros (t.map digitOf) :=
  leadingCount_eq_leadingZeros fun c hc => eq_one_iff_digitOf_eq_zero (ht c hc)

theorem map_ofNat_map_toNat (s : List Byte) : (s.map BitVec.toNat).map (BitVec.ofNat 8) = s := by
  rw [List.map_map]
  exact (List.map_congr_left fun b _ => (BitVec.ofNat_toNat 8 b).trans (BitVec.setWidth_eq b)).trans (List.map_id s)

theorem map_toNat_map_ofNat {ds : List Nat} (hds : ∀ d ∈ ds, d < 256) :
    (ds.map (BitVec.ofNat 8)).map BitVec.toNat = ds := by
  rw [List.map_map]
  exact (List.map_congr_left fun d hd => Nat.mod_eq_of_lt (hds d hd)).trans (List.map_id ds)

theorem map_a58_map_digitOf {t : List Byte} (ht : ∀ c ∈ t, (v58 c).isSome = true) :
    (t.map digitOf).map a58 = t := by
  rw [List.map_map]
  exact (List.map_congr_left fun c hc => a58_digitOf (ht c hc)).trans (List.map_id t)

theorem map_digitOf_map_a58 {ds : List Nat} (hds : ∀ d ∈ ds, d < 58) : (ds.map a58).map digitOf = ds := by
  rw [List.map_map]
  exact (List.map_congr_left fun d hd => digitOf_a58 (hds d hd)).trans (List.map_id ds)

/-! ### Strings as numerals -/

/-- A byte string is the numeral in base 256 of its number after its leading zeros. -/
theorem bytes_eq_numeral (s : List Byte) : (numeral 256 (leadingCount 0 s) (beNat s)).map (BitVec.ofNat 8) = s := by
  have hlt : ∀ d ∈ s.map BitVec.toNat, d < 256 := List.forall_mem_map.2 fun b _ => b.isLt
  rw [leadingCount_zero_eq, beNat_eq_ofDigits, numeral_of_digits (by decide) hlt, map_ofNat_map_toNat]

/-- A text over the alphabet is the numeral in base 58 of its number after its leading `'1'`s. -/
theorem text_eq_numeral {t : List Byte} (ht : ∀ c ∈ t, (v58 c).isSome = true) :
    (numeral 58 (leadingCount (ascii '1') t) (valueOf58 t)).map a58 = t := by
  have hlt : ∀ d ∈ t.map digitOf, d < 58 := List.forall_mem_map.2 fun c _ => digitOf_lt c
  rw [leadingCount_one_eq ht, valueOf58_eq_ofDigits, numeral_of_digits (by decide) hlt, map_a58_map_digitOf ht]

theorem beNat_numeral (z n : Nat) : beNat ((numeral 256 z n).map (BitVec.ofNat 8)) = n := by
  rw [beNat_eq_ofDigits, map_toNat_map_ofNat (numeral_lt (by decide)), ofDigits_numeral]

theorem leadingCount_zero_numeral (z n : Nat) : leadingCount 0 ((numeral 256 z n).map (BitVec.ofNat 8)) = z := by
  rw [leadingCount_zero_eq, map_toNat_map_ofNat (numeral_lt (by decide)), leadingZeros_numeral]

theorem isSome_v58_numeral (z n : Nat) : ∀ c ∈ (numeral 58 z n).map a58, (v58 c).isSome = true :=
  List.forall_mem_map.2 fun d hd => by rw [v58_a58 d (numeral_lt (by decide) d hd), Option.isSome_some]

theorem valueOf58_numeral (z n : Nat) : valueOf58 ((numeral 58 z n).map a58) = n := by
  rw [valueOf58_eq_ofDigits, map_digitOf_map_a58 (numeral_lt (by decide)), ofDigits_numeral]

theorem leadingCount_one_numeral (z n : Nat) : leadingCount (ascii '1') ((numeral 58 z n).map a58) = z := by
  rw [leadingCount_one_eq (isSome_v58_numeral z n), map_digitOf_map_a58 (numeral_lt (by decide)), leadingZeros_numeral]

/-! ### The conversions -/

/-- B58ENC writes the number of its bytes in base 58 after as many `'1'`s as there are leading zero bytes (R121). -/
theorem b58enc_eq_numeral (s : List Byte) : b58enc s = (numeral 58 (leadingCount 0 s) (beNat s)).map a58 := by
  rw [b58enc, digits58_eq_digits (beNat_lt_pow58 s), numeral, List.map_append, List.map_replicate,
    a58_zero]

/-- B58DEC refuses exactly the texts with a character outside the alphabet (R122). -/
theorem b58dec_eq_none_iff (t : List Byte) : b58dec t = none ↔ ∃ c ∈ t, v58 c = none := by
  simp [b58dec]

/-- B58DEC writes the number of a text in base 256 after as many zero bytes as there are leading `'1'`s (R122). -/
theorem b58dec_eq_numeral {t : List Byte} (ht : ∀ c ∈ t, (v58 c).isSome = true) :
    b58dec t = some ((numeral 256 (leadingCount (ascii '1') t) (valueOf58 t)).map (BitVec.ofNat 8)) := by
  have hany : ¬ (t.any fun c => (v58 c).isNone) = true := by
    simpa [← Option.isSome_iff_ne_none] using ht
  rw [b58dec, if_neg hany, bytesOfNat_eq_digits (valueOf58_lt_pow256 t), numeral, List.map_append, List.map_replicate]
  rfl

theorem b58dec_eq_some {t d : List Byte} (h : b58dec t = some d) :
    (∀ c ∈ t, (v58 c).isSome = true) ∧
      d = (numeral 256 (leadingCount (ascii '1') t) (valueOf58 t)).map (BitVec.ofNat 8) := by
  have ht : ∀ c ∈ t, (v58 c).isSome = true := fun c hc =>
    Option.isSome_iff_ne_none.2 fun hnone => by simp [(b58dec_eq_none_iff t).2 ⟨c, hc, hnone⟩] at h
  exact ⟨ht, Option.some.inj (h.symm.trans (b58dec_eq_numeral ht))⟩

/-- Settles O25: both conversions give numerals, and a numeral denotes its number after its zeros. -/
theorem b58TextsDenoteTheirBytes : Obligations.B58TextsDenoteTheirBytes := by
  refine ⟨fun s => ?_, fun t => ⟨b58dec_eq_none_iff t, fun d h => ?_⟩⟩
  · rw [b58enc_eq_numeral]
    exact ⟨valueOf58_numeral .., leadingCount_one_numeral .., isSome_v58_numeral _ _⟩
  · obtain ⟨-, rfl⟩ := b58dec_eq_some h
    exact ⟨beNat_numeral .., leadingCount_zero_numeral ..⟩

/-- Settles O26: the text has the bytes' number and leading zeros, and the bytes are the numeral of these. -/
theorem b58DecOfB58Enc : Obligations.B58DecOfB58Enc := by
  intro s
  obtain ⟨hvalue, hcount, halphabet⟩ := b58TextsDenoteTheirBytes.1 s
  rw [b58dec_eq_numeral halphabet, hvalue, hcount, bytes_eq_numeral]

theorem b58enc_of_b58dec {t d : List Byte} (h : b58dec t = some d) : b58enc d = t := by
  obtain ⟨hvalue, hcount⟩ := (b58TextsDenoteTheirBytes.2 t).2 d h
  rw [b58enc_eq_numeral, hvalue, hcount, text_eq_numeral (b58dec_eq_some h).1]

/-- Settles O27: the bytes have the text's number and leading zeros, and the text is the numeral of these. -/
theorem b58EncOfB58Dec : Obligations.B58EncOfB58Dec :=
  ⟨fun _ _ h => b58enc_of_b58dec h, fun _ _ _ h h' => (b58enc_of_b58dec h).symm.trans (b58enc_of_b58dec h')⟩

/-! ### Lengths -/

/-- `k` characters are enough for a byte string when `58 ^ k` numbers are enough for its length: a leading zero byte
takes one character, fewer than any other byte (R123 (e)). -/
theorem b58enc_length_le_of_pow_le {s : List Byte} {k : Nat} (h : 256 ^ s.length ≤ 58 ^ k) :
    (b58enc s).length ≤ k := by
  have hz : leadingCount 0 s ≤ s.length := leadingCount_le 0 s
  have hpow : 256 ^ (s.length - leadingCount 0 s) * 58 ^ leadingCount 0 s ≤ 58 ^ k :=
    calc 256 ^ (s.length - leadingCount 0 s) * 58 ^ leadingCount 0 s
        ≤ 256 ^ (s.length - leadingCount 0 s) * 256 ^ leadingCount 0 s := by gcongr; decide
      _ = 256 ^ s.length := by rw [← Nat.pow_add, Nat.sub_add_cancel hz]
      _ ≤ 58 ^ k := h
  have hzk : leadingCount 0 s ≤ k :=
    (Nat.pow_le_pow_iff_right (by decide)).1 ((Nat.le_mul_of_pos_left _ (by positivity)).trans hpow)
  have hval : beNat s < 58 ^ (k - leadingCount 0 s) := by
    refine (beNat_lt_leadingCount s).trans_le ?_
    refine Nat.le_of_mul_le_mul_right (c := 58 ^ leadingCount 0 s) ?_ (by positivity)
    rwa [← Nat.pow_add, Nat.sub_add_cancel hzk]
  have hdigits := digits58_length_le (2 * s.length) hval
  simp only [b58enc, List.length_append, List.length_replicate, List.length_map]
  omega

/-- 85 bytes, the largest image of B58C.ENC, make at most 117 characters, since 256 ^ 85 ≤ 58 ^ 117 (R123 (e)). -/
theorem b58enc_length_le_117 {s : List Byte} (h : s.length ≤ 85) : (b58enc s).length ≤ 117 :=
  b58enc_length_le_of_pow_le <|
    calc 256 ^ s.length ≤ 256 ^ 85 := by gcongr; decide
      _ ≤ 58 ^ 117 := by norm_num

theorem b58enc_replicate_zero (n : Nat) : b58enc (List.replicate n 0) = List.replicate n (ascii '1') := by
  have hcount : leadingCount 0 (List.replicate n 0) = n := by simp [leadingCount]
  have hvalue : beNat (List.replicate n 0) = 0 := by
    simp [beNat_eq_ofDigits, Nat.ofDigits_replicate_zero]
  rw [b58enc_eq_numeral, hcount, hvalue, numeral]
  simp [a58_zero]

/-- Settles O28: the lengths by comparing powers of 256 and 58, zero bytes by the numeral of 0 and `b58DecOfB58Enc`. -/
theorem b58LengthBounds : Obligations.B58LengthBounds := by
  refine ⟨fun _ => b58enc_length_le, fun _ => b58enc_length_le_117, fun _ _ => b58dec_length_le, fun n => ?_⟩
  refine ⟨b58enc_replicate_zero n, ?_⟩
  rw [← b58enc_replicate_zero]
  exact b58DecOfB58Enc _

end Sys2Proof.Machine
end

section
/-! PROOFS. The commands B58.ENC and B58.DEC (R125, R128): the checks in their order, then the conversion. -/

namespace Sys2Proof.Machine

/-- Settles O14: the check of ILEN decides, and the text of at most 93 bytes fits OBUF. -/
theorem b58EncResult : Obligations.B58EncResult := by
  refine ⟨by decide, fun s => ⟨fun hlen => ?_, fun hlong => ?_⟩⟩
  · exact ⟨_, if_neg (Nat.not_lt.2 hlen), succeed_succeeded (b58enc_length_le (by simpa using hlen)) ..⟩
  · exact ⟨_, if_pos hlong, failWith_failed ..⟩

/-- Settles O15: ILEN is checked first, then the alphabet; the bytes are no longer than their text, so they fit OBUF. -/
theorem b58DecResult : Obligations.B58DecResult := by
  refine ⟨by decide, fun s => ⟨fun hlong => ?_, fun hlen hbad => ?_, fun hlen hgood => ?_⟩⟩
  · exact ⟨_, if_pos hlong, failWith_failed ..⟩
  · refine ⟨_, (if_neg (Nat.not_lt.2 hlen)).trans ?_, failWith_failed ..⟩
    rw [(b58dec_eq_none_iff _).2 hbad]
  · have hdec := b58dec_eq_numeral fun c hc => Option.isSome_iff_ne_none.2 (hgood c hc)
    have hfits := b58dec_length_le hdec
    rw [inputString_length] at hfits
    refine ⟨_, _, hdec, (if_neg (Nat.not_lt.2 hlen)).trans ?_, succeed_succeeded (hfits.trans hlen) ..⟩
    rw [hdec]

end Sys2Proof.Machine
end

section
/-! PROOFS. The digit arrays of R124: an array holds the digits of the number read so far, least significant first. -/

namespace Sys2Proof.Machine

section
variable {B M : Nat}

/-- The turns of `appendCarry` give all digits of the carry. -/
theorem appendCarry_eq_digits (hB : 1 < B) {fuel carry : Nat} (h : carry < B ^ fuel) :
    appendCarry B fuel carry = Nat.digits B carry := by
  induction fuel generalizing carry with
  | zero => simp_all [appendCarry]
  | succ k ih =>
    rcases Nat.eq_zero_or_pos carry with rfl | hpos
    · simp [appendCarry]
    · have hdiv : carry / B < B ^ k := Nat.div_lt_of_lt_mul (by rwa [Nat.pow_succ'] at h)
      rw [appendCarry, if_neg hpos.ne', ih hdiv, Nat.digits_def' hB hpos]

/-- `absorb` multiplies the number of the array and adds the carry. The carry stays below the multiplier `M`, so the two
turns left for it at the end of the array are enough. -/
theorem absorb_digits (hB : 1 < B) (hM : M ≤ B ^ 2) {carry : Nat} (hcarry : carry < M) (n : Nat) :
    absorb B M (Nat.digits B n) carry = Nat.digits B (M * n + carry) := by
  induction n using Nat.strongRecOn generalizing carry with
  | ind n ih =>
    rcases Nat.eq_zero_or_pos n with rfl | hn
    · rw [Nat.digits_zero, absorb, appendCarry_eq_digits hB (hcarry.trans_le hM), Nat.mul_zero, Nat.zero_add]
    · have hsplit : M * n + carry = carry + M * (n % B) + B * (M * (n / B)) := by
        conv_lhs => rw [← Nat.mod_add_div n B]
        ring
      have hnext : (carry + M * (n % B)) / B < M := by
        have hdigit : n % B + 1 ≤ B := Nat.mod_lt n (by omega)
        refine Nat.div_lt_of_lt_mul ?_
        calc carry + M * (n % B) < M * (n % B + 1) := by rw [Nat.mul_succ]; omega
          _ ≤ M * B := Nat.mul_le_mul_left M hdigit
          _ = B * M := Nat.mul_comm ..
      have hpos : 0 < M * n + carry := Nat.add_pos_left (Nat.mul_pos (by omega) hn) carry
      rw [Nat.digits_def' hB hn, absorb, ih _ (Nat.div_lt_self hn hB) hnext, Nat.digits_def' hB hpos, hsplit,
        Nat.add_mul_mod_self_left, Nat.add_mul_div_left _ _ (by omega), Nat.add_comm (M * (n / B))]

/-- Absorbing the digits of a string gives the array of its number. -/
theorem foldl_absorb (hB : 1 < B) (hM : M ≤ B ^ 2) {f : Byte → Nat} (hf : ∀ x, f x < M) (t : List Byte) :
    t.foldl (fun ds x => absorb B M ds (f x)) [] = Nat.digits B (t.foldl (fun n x => M * n + f x) 0) := by
  induction t using List.reverseRecOn with
  | nil => simp
  | append_singleton t x ih => rw [List.foldl_concat, List.foldl_concat, ih, absorb_digits hB hM (hf x)]

/-- Leading elements of value 0 do not count. -/
theorem foldl_drop_leadingCount {f : Byte → Nat} {x : Byte} (hx : f x = 0) (t : List Byte) :
    (t.drop (leadingCount x t)).foldl (fun n c => M * n + f c) 0 = t.foldl (fun n c => M * n + f c) 0 := by
  induction t with
  | nil => rfl
  | cons c t ih =>
    by_cases hc : c = x
    · simpa [leadingCount, hc, hx] using ih
    · simp [leadingCount, hc]

end

theorem b58encArray_eq (s : List Byte) : b58encArray s = b58enc s := by
  have harray : (s.drop (leadingCount 0 s)).foldl (fun ds b => absorb 58 256 ds b.toNat) [] =
      Nat.digits 58 (beNat s) := by
    rw [foldl_absorb (by decide) (by decide) (fun b => b.isLt), foldl_drop_leadingCount rfl]
    rfl
  rw [b58encArray, harray, b58enc, digits58_eq_digits (beNat_lt_pow58 s)]

theorem b58decArray_eq (t : List Byte) : b58decArray t = b58dec t := by
  have harray : (t.drop (leadingCount (ascii '1') t)).foldl (fun bs c => absorb 256 58 bs (digitOf c)) [] =
      Nat.digits 256 (valueOf58 t) := by
    rw [foldl_absorb (by decide) (by decide) digitOf_lt, foldl_drop_leadingCount (by decide)]
    rfl
  rw [b58decArray, harray, b58dec, bytesOfNat_eq_digits (valueOf58_lt_pow256 t)]

/-- Settles O29: the arrays hold the digits that the loops of R121 and R122 make. -/
theorem b58ArrayForm : Obligations.B58ArrayForm := ⟨b58encArray_eq, b58decArray_eq⟩

end Sys2Proof.Machine
end

section
/-! PROOFS. The padding and the reference digests of SHA-256 (R142, R148), and the commands HASH256 and CKSUM4
(R152, R153). -/

namespace Sys2Proof.Machine

/-! ### The commands -/

/-- Settles O16: the check of ILEN decides, and the 32 bytes of a digest fit OBUF. -/
theorem hash256Result : Obligations.Hash256Result := by
  refine ⟨by decide, fun s => ⟨fun hlen => ?_, fun hlong => ?_⟩⟩
  · exact ⟨_, if_neg (Nat.not_lt.2 hlen), by simp, succeed_succeeded (by simp) ..⟩
  · exact ⟨_, if_pos hlong, failWith_failed ..⟩

/-- Settles O17: the check of ILEN decides, and CK4 is the first four bytes of the double hash (R151). -/
theorem cksum4Result : Obligations.Cksum4Result := by
  refine ⟨by decide, fun s => ⟨fun hlen => ?_, fun hlong => ?_⟩⟩
  · exact ⟨_, if_neg (Nat.not_lt.2 hlen), by simp, succeed_succeeded (bs := ck4 (inputString s)) (by simp) ..⟩
  · exact ⟨_, if_pos hlong, failWith_failed ..⟩

/-! ### The padding -/

/-- `L + 1 + padZeros L` leaves 56 modulo 64 (R142). -/
theorem padZeros_mod (len : Nat) : (len + 1 + padZeros len) % 64 = 56 := by
  unfold padZeros
  omega

/-- No smaller number of zero bytes does it: the number is below the modulus 64 (R142). -/
theorem padZeros_le {len j : Nat} (h : (len + 1 + j) % 64 = 56) : padZeros len ≤ j := by
  unfold padZeros
  omega

/-- The padded message fills `blockCount` blocks of 64 bytes (R142). -/
theorem padMessage_length (m : List Byte) : (padMessage m).length = 64 * blockCount m.length := by
  simp only [padMessage, padZeros, blockCount, List.length_append, List.length_replicate, List.length_singleton,
    be8_length]
  omega

/-- The first `i` bytes of `be8 x` denote the number of the upper `8 * i` bits of `x`. -/
theorem beNat_be8_upper (x : BitVec 64) {i : Nat} (h : i ≤ 8) :
    beNat ((List.range i).map fun k => x.extractLsb' (56 - 8 * k) 8) = x.toNat >>> (64 - 8 * i) := by
  induction i with
  | zero => exact (Nat.shiftRight_eq_zero _ _ x.isLt).symm
  | succ i ih =>
    have hupper : 64 - 8 * i = 56 - 8 * i + 8 := by omega
    have hlower : 64 - 8 * (i + 1) = 56 - 8 * i := by omega
    rw [List.range_succ, List.map_append, List.map_singleton, beNat_snoc, ih (by omega), BitVec.extractLsb'_toNat,
      hupper, hlower, Nat.shiftRight_add, Nat.shiftRight_eq_div_pow _ 8]
    exact Nat.div_add_mod ..

/-- Eight bytes, most significant first, denote their number (R142, `len8`). -/
theorem beNat_be8 (x : BitVec 64) : beNat (be8 x) = x.toNat := beNat_be8_upper x (Nat.le_refl 8)

/-- Settles O31: the zero bytes are `padZeros`, and below 2 ^ 61 bytes the bit length fits the eight bytes. -/
theorem sha256Padding : Obligations.Sha256Padding := by
  intro m
  refine ⟨padZeros m.length, be8 (BitVec.ofNat 64 (8 * m.length)), rfl, padZeros_mod _, fun _ => padZeros_le,
    be8_length _, fun hlen => ?_, padMessage_length m⟩
  rw [beNat_be8, BitVec.toNat_ofNat]
  omega

/-! ### The reference digests -/

/-- Settles O30: the messages are fixed, so the kernel computes each digest. -/
theorem sha256ReferenceValues : Obligations.Sha256ReferenceValues :=
  ⟨by decide +kernel, by decide +kernel, by decide +kernel, by decide +kernel⟩

end Sys2Proof.Machine
end

section
/-! PROOFS. The image and the template test of spec/42_base58check.md (R170, R175): a decoded string opens exactly when
it is an image, and the template test answers by what the table holds. -/

namespace Sys2Proof.Machine

/-! ### The image -/

theorem openImage_image (ver : Byte) (p : List Byte) : openImage (image ver p) = some (ver, p) := by
  have hcut : (image ver p).length - 4 = (ver :: p).length := by simp
  have hbody : (image ver p).take ((image ver p).length - 4) = ver :: p := List.take_left' hcut.symm
  have hcksum : (image ver p).drop ((image ver p).length - 4) = ck4 (ver :: p) := List.drop_left' hcut.symm
  have hroom : ¬ (image ver p).length < 5 := by simp
  rw [openImage, hbody, hcksum, if_neg hroom, if_neg (not_not.2 rfl)]

/-- Only an image opens: its body and the checksum of its body make it up (R175, lines 4 to 7). -/
theorem eq_image_of_openImage {d p : List Byte} {ver : Byte} (h : openImage d = some (ver, p)) : d = image ver p := by
  unfold openImage at h
  split at h
  · cases h
  · split at h
    · cases h
    · rename_i hcksum
      split at h
      · cases h
      · rename_i hbody
        cases h
        rw [image, ← hbody, not_not.1 hcksum, List.take_append_drop]

/-- A text opens exactly when it is the text of an image (R175, R177). -/
theorem b58cOpen_eq_some_iff {t p : List Byte} {ver : Byte} :
    b58cOpen t = some (ver, p) ↔ b58dec t = some (image ver p) := by
  rw [b58cOpen, Option.bind_eq_some_iff]
  constructor
  · rintro ⟨d, hdec, hopen⟩
    rw [hdec, eq_image_of_openImage hopen]
  · exact fun hdec => ⟨_, hdec, openImage_image ver p⟩

theorem b58cOpen_eq_none {t : List Byte} (h : ∀ ver p, b58dec t ≠ some (image ver p)) : b58cOpen t = none :=
  Option.eq_none_iff_forall_ne_some.2 fun ⟨ver, p⟩ hopen => h ver p (b58cOpen_eq_some_iff.1 hopen)

/-! ### The template test -/

theorem Template.hasVersion_iff (t : Template) (ver : Byte) :
    t.hasVersion ver = true ↔ t.valid = true ∧ t.version = ver := by
  simp [Template.hasVersion]

theorem Template.matches_iff (t : Template) (ver : Byte) (plen : Nat) :
    t.matches ver plen = true ↔ t.valid = true ∧ t.version = ver ∧ t.payLen.toNat = plen := by
  simp [Template.matches, Template.hasVersion_iff, and_assoc]

theorem mem_templates_iff {tpl : Vector Template 16} {t : Template} : t ∈ tpl.toList ↔ ∃ i : Fin 16, tpl.get i = t := by
  simp [Vector.mem_iff_getElem, Fin.exists_iff, Vector.get_eq_getElem]

/-- Some entry is in the set S of R175, line 9. -/
theorem any_hasVersion_iff {tpl : Vector Template 16} {ver : Byte} :
    (tpl.toList.any fun t => t.hasVersion ver) = true ↔ ∃ i, (tpl.get i).valid = true ∧ (tpl.get i).version = ver := by
  simp only [List.any_eq_true, mem_templates_iff, exists_exists_eq_and, Template.hasVersion_iff]

section
variable {tc : Bool} {tpl : Vector Template 16} {ver : Byte} {plen : Nat}

theorem templateTest_off (hoff : tc = false) : templateTest tc tpl ver plen = .notTested := by
  rw [hoff]
  rfl

/-- The set S of R175, line 9, is empty. -/
theorem templateTest_unknownVersion (hon : tc = true)
    (hnone : ∀ i, ¬ ((tpl.get i).valid = true ∧ (tpl.get i).version = ver)) :
    templateTest tc tpl ver plen = .unknownVersion := by
  have hS : ¬ (tpl.toList.any fun t => t.hasVersion ver) = true :=
    fun hany => (any_hasVersion_iff.1 hany).elim hnone
  rw [templateTest, if_pos hon, if_neg hS]

/-- The set S of R175 is not empty, and its subset M, line 11, is. -/
theorem templateTest_wrongLength (hon : tc = true)
    (hsome : ∃ i, (tpl.get i).valid = true ∧ (tpl.get i).version = ver)
    (hlen : ∀ i, (tpl.get i).valid = true → (tpl.get i).version = ver → (tpl.get i).payLen.toNat ≠ plen) :
    templateTest tc tpl ver plen = .wrongLength := by
  have hM : (tpl.toList.findIdx? fun t => t.matches ver plen) = none := by
    refine List.findIdx?_eq_none_iff.2 fun t ht => ?_
    obtain ⟨i, rfl⟩ := mem_templates_iff.1 ht
    rw [Bool.eq_false_iff, ne_eq, Template.matches_iff]
    exact fun ⟨hvalid, hver, hplen⟩ => hlen i hvalid hver hplen
  rw [templateTest, if_pos hon, if_pos (any_hasVersion_iff.2 hsome), hM]

/-- The smallest index of the set M of R175, line 14. -/
theorem templateTest_hit (hon : tc = true) {i : Fin 16}
    (hi : (tpl.get i).valid = true ∧ (tpl.get i).version = ver ∧ (tpl.get i).payLen.toNat = plen)
    (hleast : ∀ j, j < i →
      ¬ ((tpl.get j).valid = true ∧ (tpl.get j).version = ver ∧ (tpl.get j).payLen.toNat = plen)) :
    templateTest tc tpl ver plen = .hit i.val := by
  have hsome : ∃ j, (tpl.get j).valid = true ∧ (tpl.get j).version = ver := ⟨i, hi.imp_right And.left⟩
  have hM : (tpl.toList.findIdx? fun t => t.matches ver plen) = some i.val := by
    refine List.findIdx?_eq_some_iff_getElem.2 ⟨by simp, ?_, fun j hji => ?_⟩
    · exact (Template.matches_iff ..).2 hi
    · rw [Template.matches_iff]
      exact hleast ⟨j, hji.trans i.isLt⟩ hji
  rw [templateTest, if_pos hon, if_pos (any_hasVersion_iff.2 hsome), hM]

end

end Sys2Proof.Machine
end

section
/-! PROOFS. The commands B58C.ENC and B58C.DEC (R173, R175): the checks in their order, then the conversion and, for a
decode, the template test. -/

namespace Sys2Proof.Machine

/-- Settles O18: the check of ILEN decides; an image of at most 85 bytes makes at most 117 characters. -/
theorem b58cEncResult : Obligations.B58cEncResult := by
  refine ⟨fun ver => decodeOfEncode (.b58cEnc ver) (instr_wf _), fun ver s => ⟨fun hlen => ?_, fun hlong => ?_⟩⟩
  · have htext : (b58enc (image ver (inputString s))).length ≤ 117 := b58enc_length_le_117 (by simpa using hlen)
    have hsucc := succeed_succeeded (htext.trans (by decide)) noRes0 0 s
    have ⟨_, ⟨holen, _⟩, _⟩ := hsucc
    exact ⟨_, if_neg (Nat.not_lt.2 hlen), holen.trans_le htext, hsucc⟩
  · exact ⟨_, if_pos hlong, failWith_failed ..⟩

/-- A text of an image completes by the outcome of the template test (R175, lines 8 to 16). -/
theorem execB58cDec_of_image {s : State} {ver : Byte} {p : List Byte} {r : TemplateResult} (hlen : s.ilen.toNat ≤ 128)
    (hdec : b58dec (inputString s) = some (image ver p))
    (hr : templateTest (sampledTplchk s) s.tpl ver p.length = r) :
    exec .b58cDec s = .next (finishB58cDec ver p s r) := by
  refine (if_neg (Nat.not_lt.2 hlen)).trans ?_
  rw [b58cOpen_eq_some_iff.2 hdec, ← hr]

/-- A text of no image fails whatever the cause (R177). -/
theorem execB58cDec_of_no_image {s : State} (hlen : s.ilen.toNat ≤ 128)
    (hdec : ∀ ver p, b58dec (inputString s) ≠ some (image ver p)) : exec .b58cDec s = .next (failWith .b58CkLen s) := by
  refine (if_neg (Nat.not_lt.2 hlen)).trans ?_
  rw [b58cOpen_eq_none hdec]

/-- Settles O19: ILEN is checked first; then the text is or is not that of an image; the payload of an image is no
longer than its text, so it fits OBUF, and the template test picks the completion. -/
theorem b58cDecResult : Obligations.B58cDecResult := by
  refine ⟨by decide, fun _ _ _ => sampledTplchk_run, fun s => ⟨fun hlong => ?_, fun hlen hdec => ?_,
    fun ver p hlen hdec => ?_⟩⟩
  · exact ⟨_, if_pos hlong, failWith_failed ..⟩
  · exact ⟨_, execB58cDec_of_no_image hlen hdec, failWith_failed ..⟩
  · have hexec := fun r => execB58cDec_of_image (r := r) hlen hdec
    have hfits : p.length ≤ 128 := by
      have hp := b58cOpen_length_le (b58cOpen_eq_some_iff.2 hdec)
      rw [inputString_length] at hp
      omega
    refine ⟨fun hoff => ?_, fun hon hnone => ?_, fun hon hsome hwrong => ?_,
      fun i hon hvalid hver hplen hleast => ?_⟩
    · exact ⟨_, hexec _ (templateTest_off hoff), succeed_succeeded hfits ..⟩
    · exact ⟨_, hexec _ (templateTest_unknownVersion hon hnone), failKeeping_failed ..⟩
    · exact ⟨_, hexec _ (templateTest_wrongLength hon hsome hwrong), failWith_failed ..⟩
    · exact ⟨_, hexec _ (templateTest_hit hon ⟨hvalid, hver, hplen⟩ hleast), succeed_succeeded hfits ..⟩

end Sys2Proof.Machine
end

section
/-! PROOFS. Commands in sequence (R182, program P6): MOV.O2I carries an output string into the input string of the next
command. -/

namespace Sys2Proof.Machine

/-! ### Strings across a completion -/

/-- OLEN and the bytes below it are the output string. -/
theorem ObufHolds.outputString_eq {t : State} {bs : List Byte} (h : ObufHolds t bs) : outputString t = bs := by
  obtain ⟨holen, hbytes⟩ := h
  refine List.ext_getElem (by rw [outputString_length, holen]) fun i _ hi => ?_
  rw [← hbytes i hi]
  exact readBytes_getElem ..

/-- An input string of at most 128 bytes lies in IBUF, which the frame keeps (R250). -/
theorem InputsKept.inputString_eq {s t : State} (h : InputsKept s t) (hlen : s.ilen.toNat ≤ 128) :
    inputString t = inputString s := by
  obtain ⟨-, hilen, hbytes⟩ := h
  rw [inputString, hilen]
  exact readBytes_congr fun i hi => hbytes _ (by simp only [ibufBase]; omega)

theorem readBytes_add (s : State) (a m n : Nat) : readBytes s a (m + n) = readBytes s a m ++ readBytes s (a + m) n := by
  simp [readBytes, List.range_add, Nat.add_assoc]

theorem sampledTplchk_idle {s : State} (h : s.phase = .idle) : sampledTplchk s = s.tplchk := by
  rw [sampledTplchk, h]

/-- MOV.O2I that fits leaves as the input string the first OFF bytes of IBUF and then the output string (R236). -/
theorem exec_movO2I_inputString {off : Byte} {s : State} (hfits : off.toNat + s.olen.toNat ≤ 128) :
    ∃ t, exec (.movO2I off) s = .next t ∧ t.tplchk = s.tplchk ∧ t.phase = .idle ∧
      inputString t = readBytes s ibufBase off.toNat ++ outputString s := by
  rcases execMovO2I_cases off s with ⟨hlong, -⟩ | ⟨-, hexec⟩
  · omega
  · obtain ⟨-, -, -, hframe⟩ := execMovO2I_frame hexec
    refine ⟨_, hexec, rfl, rfl, ?_⟩
    rw [inputString, complete_ilen, BitVec.toNat_ofNat, Nat.mod_eq_of_lt (by omega), readBytes_add]
    congr 1
    · exact readBytes_congr fun i hi => hframe _ (by simp only [ibufBase]; omega)
    · refine List.ext_getElem (by simp) fun i _ hi => ?_
      rw [readBytes_getElem]
      exact readByte_movO2I_inside off _ _ s i hi

/-! ### The round trip and the composition -/

/-- Settles O36: MOV.O2I hands the text over, and the text is that of the image of the version and the payload. -/
theorem base58CheckRoundTrip : Obligations.Base58CheckRoundTrip := by
  intro ver s hlen hoff
  obtain ⟨s1, henc, holen, -, htext, -, -, ⟨-, htplchk1, -⟩, -, -⟩ := (b58cEncResult.2 ver s).1 hlen
  obtain ⟨s2, hmov, htplchk2, hidle, hinput⟩ := exec_movO2I_inputString (off := 0) (s := s1)
    (show 0 + s1.olen.toNat ≤ 128 by omega)
  have htext2 : inputString s2 = b58enc (image ver (inputString s)) := hinput.trans htext.outputString_eq
  have hilen2 : s2.ilen.toNat = s1.olen.toNat := by
    rw [← inputString_length, htext2, htext.1]
    rfl
  have hdec : b58dec (inputString s2) = some (image ver (inputString s)) := by rw [htext2, b58DecOfB58Enc]
  have hoff2 : sampledTplchk s2 = false := by rw [sampledTplchk_idle hidle, htplchk2, htplchk1, hoff]
  obtain ⟨-, -, himage⟩ := b58cDecResult.2.2 s2
  obtain ⟨huntested, -⟩ := himage ver (inputString s) (by omega) hdec
  obtain ⟨t, hexec, hdone, hpayload, hres0, -⟩ := huntested hoff2
  refine ⟨s1, s2, t, henc, hmov, hexec, hdone, ?_, ?_, ?_, hpayload⟩ <;> rw [hres0]
  rw [inputString_length, BitVec.ofNat_toNat, BitVec.setWidth_eq]

/-- Settles O37: CKSUM4 and MOV.O2I complete the input string to the image that B58C.ENC encodes. -/
theorem base58CheckFromParts : Obligations.Base58CheckFromParts := by
  intro ver s s' hlen hI
  have hilen : s.ilen.toNat = s'.ilen.toNat + 1 := by
    simpa using congrArg List.length hI
  obtain ⟨s1, hck, holen, -, hcksum, -, -, hkept⟩ := (cksum4Result.2 s).1 (by omega)
  have hsum : s.ilen.toNat + s1.olen.toNat = s.ilen.toNat + 4 := by rw [holen]; rfl
  obtain ⟨s2, hmov, -, -, hinput⟩ := exec_movO2I_inputString (off := s.ilen) (s := s1) (by omega)
  have himage : inputString s2 = image ver (inputString s') := by
    have hkeep : readBytes s1 ibufBase s.ilen.toNat = inputString s := by
      have ⟨_, hsame, _⟩ := hkept
      rw [← hkept.inputString_eq (by omega), inputString, hsame]
    rw [hinput, hkeep, hcksum.outputString_eq, hI]
    rfl
  have hilen2 : s2.ilen.toNat = s'.ilen.toNat + 5 := by
    simpa using congrArg List.length himage
  obtain ⟨t, henc, ⟨herr, -⟩, htext, -⟩ := (b58EncResult.2 s2).1 (by omega)
  obtain ⟨t', henc', -, ⟨herr', -⟩, htext', -⟩ := (b58cEncResult.2 ver s').1 hlen
  refine ⟨s1, s2, t, t', hck, hmov, henc, henc', herr, herr', ?_⟩
  rw [htext.outputString_eq, htext'.outputString_eq, himage]
  rfl

end Sys2Proof.Machine
end

section
/-! PROOFS. Bit strings, most significant bit first (R191): the low bits of a number as a string, how it splits, and that
`natOfBits` reads it back. -/

namespace Sys2Proof.Machine

/-- The low `n` bits of a number, most significant first: `bitsOf` of the value of width `n`. -/
def lowBits (n a : Nat) : List Bool := bitsOf (BitVec.ofNat n a)

@[simp] theorem lowBits_length (n a : Nat) : (lowBits n a).length = n := bitsOf_length _

theorem bitsOf_eq_lowBits {n : Nat} (x : BitVec n) : bitsOf x = lowBits n x.toNat := by
  rw [lowBits, BitVec.ofNat_toNat, BitVec.setWidth_eq]

theorem lowBits_getElem {n a i : Nat} (h : i < (lowBits n a).length) : (lowBits n a)[i] = a.testBit (n - 1 - i) := by
  have hi : i < n := by simpa using h
  simp [lowBits, bitsOf, BitVec.getLsbD_ofNat, show n - 1 - i < n by omega]

/-- The low `m + n` bits are those above the low `n`, and then the low `n`. -/
theorem lowBits_add (m n a : Nat) : lowBits (m + n) a = lowBits m (a >>> n) ++ lowBits n a := by
  refine List.ext_getElem (by simp) fun i hi _ => ?_
  have hlt : i < m + n := by simpa using hi
  rw [lowBits_getElem, List.getElem_append]
  split
  · next him =>
    have him : i < m := by simpa using him
    rw [lowBits_getElem, Nat.testBit_shiftRight]
    congr 1
    omega
  · next him =>
    have him : m ≤ i := by simpa using him
    rw [lowBits_getElem, lowBits_length]
    congr 1
    omega

/-- Bits of a number at and above the width do not count. -/
theorem lowBits_mod (n a : Nat) : lowBits n (a % 2 ^ n) = lowBits n a := by
  exact congrArg bitsOf (BitVec.eq_of_toNat_eq (by simp))

theorem lowBits_zero_right (n : Nat) : lowBits n 0 = List.replicate n false := by
  refine List.ext_getElem (by simp) fun i _ _ => ?_
  rw [lowBits_getElem, Nat.zero_testBit, List.getElem_replicate]

theorem lowBits_one (a : Nat) : lowBits 1 a = [a.testBit 0] :=
  congrArg (fun c => [c]) (lowBits_getElem (n := 1) (a := a) (i := 0) (by simp))

/-- Appending `i` bits below a number appends them to its string. -/
theorem lowBits_shiftLeft_or {i : Nat} (m a : Nat) (x : BitVec i) :
    lowBits (m + i) (a <<< i ||| x.toNat) = lowBits m a ++ bitsOf x := by
  have hx := x.isLt
  have hsum : a <<< i ||| x.toNat = 2 ^ i * a + x.toNat := by
    rw [Nat.shiftLeft_eq, Nat.mul_comm, Nat.two_pow_add_eq_or_of_lt hx]
  rw [hsum, lowBits_add, bitsOf_eq_lowBits]
  congr 1
  · rw [Nat.shiftRight_eq_div_pow, Nat.mul_add_div (Nat.two_pow_pos i), Nat.div_eq_of_lt hx, Nat.add_zero]
  · rw [← lowBits_mod, Nat.mul_add_mod, lowBits_mod]

theorem lowBits_shiftLeft (m i a : Nat) : lowBits (m + i) (a <<< i) = lowBits m a ++ List.replicate i false := by
  have h := lowBits_shiftLeft_or m a (0#i)
  rwa [bitsOf_eq_lowBits, BitVec.toNat_zero, Nat.or_zero, lowBits_zero_right] at h

theorem natOfBits_snoc (l : List Bool) (c : Bool) : natOfBits (l ++ [c]) = 2 * natOfBits l + bitNat c := by
  simp [natOfBits]

theorem bitNat_testBit_zero (a : Nat) : bitNat (a.testBit 0) = a % 2 := by
  rcases Nat.mod_two_eq_zero_or_one a with h | h <;> simp [Nat.testBit_zero, h]

theorem natOfBits_lowBits (n a : Nat) : natOfBits (lowBits n a) = a % 2 ^ n := by
  induction n generalizing a with
  | zero => rw [pow_zero, Nat.mod_one]; rfl
  | succ n ih =>
    rw [lowBits_add, lowBits_one, natOfBits_snoc, ih, bitNat_testBit_zero, pow_succ', Nat.mod_mul, Nat.shiftRight_one,
      Nat.add_comm]

@[simp] theorem natOfBits_bitsOf {n : Nat} (x : BitVec n) : natOfBits (bitsOf x) = x.toNat := by
  rw [bitsOf_eq_lowBits, natOfBits_lowBits, Nat.mod_eq_of_lt x.isLt]

theorem lowBits_natOfBits (l : List Bool) : lowBits l.length (natOfBits l) = l := by
  induction l using List.reverseRecOn with
  | nil => rfl
  | append_singleton l c ih =>
    have hupper : (2 * natOfBits l + bitNat c) >>> 1 = natOfBits l := by cases c <;> simp <;> omega
    have hlast : (2 * natOfBits l + bitNat c).testBit 0 = c := by cases c <;> simp [Nat.testBit_zero]
    rw [List.length_append, List.length_singleton, lowBits_add, lowBits_one, natOfBits_snoc, hupper, hlast, ih]

/-- A number that fits its width has a 1 among its bits exactly when it is not 0. -/
theorem any_lowBits {n a : Nat} (h : a < 2 ^ n) : (lowBits n a).any id = true ↔ a ≠ 0 := by
  refine iff_not_comm.1 ⟨?_, fun hnone => ?_⟩
  · rintro rfl
    simp [lowBits_zero_right]
  · have hzero : lowBits n a = lowBits n 0 := by
      rw [lowBits_zero_right]
      exact List.eq_replicate_iff.2 ⟨lowBits_length n a, by simpa using hnone⟩
    have := congrArg natOfBits hzero
    rwa [natOfBits_lowBits, natOfBits_lowBits, Nat.mod_eq_of_lt h, Nat.zero_mod] at this

end Sys2Proof.Machine
end

section
/-! PROOFS. GROUP and UNGROUP by their bit streams (R192): cutting a stream into symbols or bytes undoes writing them out,
so regrouping loses nothing. -/

namespace Sys2Proof.Machine

/-! ### Cutting a stream -/

@[simp] theorem bits8_cons (x : Byte) (b : List Byte) : bits8 (x :: b) = bitsOf x ++ bits8 b := rfl

@[simp] theorem bits5_cons (x : Symbol) (v : List Symbol) : bits5 (x :: v) = bitsOf x ++ bits5 v := rfl

theorem takeSymbols_bitsOf_append (x : Symbol) (rest : List Bool) :
    takeSymbols (bitsOf x ++ rest) = x :: takeSymbols rest := by
  have h : takeSymbols (bitsOf x ++ rest) = BitVec.ofNat 5 (natOfBits (bitsOf x)) :: takeSymbols rest := rfl
  rw [h, natOfBits_bitsOf, BitVec.ofNat_toNat, BitVec.setWidth_eq]

theorem takeBytes_bitsOf_append (x : Byte) (rest : List Bool) :
    takeBytes (bitsOf x ++ rest) = x :: takeBytes rest := by
  have h : takeBytes (bitsOf x ++ rest) = BitVec.ofNat 8 (natOfBits (bitsOf x)) :: takeBytes rest := rfl
  rw [h, natOfBits_bitsOf, BitVec.ofNat_toNat, BitVec.setWidth_eq]

@[simp] theorem takeSymbols_bits5 (v : List Symbol) : takeSymbols (bits5 v) = v := by
  induction v with
  | nil => rfl
  | cons x v ih => rw [bits5_cons, takeSymbols_bitsOf_append, ih]

@[simp] theorem takeBytes_bits8 (b : List Byte) : takeBytes (bits8 b) = b := by
  induction b with
  | nil => rfl
  | cons x b ih => rw [bits8_cons, takeBytes_bitsOf_append, ih]

/-- A stream of a multiple of `w` bits is that of some values of width `w`. -/
theorem exists_flatMap_bitsOf {w m : Nat} {bits : List Bool} (h : bits.length = w * m) :
    ∃ v : List (BitVec w), v.flatMap bitsOf = bits := by
  induction m generalizing bits with
  | zero => exact ⟨[], (List.eq_nil_of_length_eq_zero h).symm⟩
  | succ m ih =>
    rw [Nat.mul_succ] at h
    have hhead : (bits.take w).length = w := by rw [List.length_take]; omega
    obtain ⟨v, hv⟩ := ih (bits := bits.drop w) (by rw [List.length_drop]; omega)
    refine ⟨BitVec.ofNat w (natOfBits (bits.take w)) :: v, ?_⟩
    have hx : lowBits w (natOfBits (bits.take w)) = bits.take w := by
      simpa only [hhead] using lowBits_natOfBits (bits.take w)
    rw [List.flatMap_cons, hv, ← lowBits, hx, List.take_append_drop]

theorem bits5_takeSymbols {bits : List Bool} {m : Nat} (h : bits.length = 5 * m) : bits5 (takeSymbols bits) = bits := by
  obtain ⟨v, rfl⟩ : ∃ v, bits5 v = bits := exists_flatMap_bitsOf h
  rw [takeSymbols_bits5]

theorem bits8_takeBytes {bits : List Bool} {m : Nat} (h : bits.length = 8 * m) : bits8 (takeBytes bits) = bits := by
  obtain ⟨b, rfl⟩ : ∃ b, bits8 b = bits := exists_flatMap_bitsOf h
  rw [takeBytes_bits8]

/-! ### The two functions -/

/-- The stream of GROUP: the bits of the bytes and then the padding. -/
theorem bits5_group (b : List Byte) :
    bits5 (group b) = bits8 b ++ List.replicate (5 * groupCount b.length - 8 * b.length) false := by
  refine bits5_takeSymbols (m := groupCount b.length) ?_
  rw [List.length_append, bits8_length, List.length_replicate, groupCount]
  omega

theorem group_length (b : List Byte) : (group b).length = groupCount b.length := by
  have h := congrArg List.length (bits5_group b)
  rw [bits5_length, List.length_append, bits8_length, List.length_replicate, groupCount] at h
  rw [groupCount]
  omega

/-- UNGROUP of symbols whose stream is that of bytes `b` and fewer than 8 bits more: the left-over bits decide. -/
theorem ungroup_of_bits5 {v : List Symbol} {b : List Byte} {rest : List Bool} (h : bits5 v = bits8 b ++ rest)
    (hrest : rest.length < 8) :
    ungroup v = if 5 ≤ rest.length ∨ rest.any id = true then none else some b := by
  have hlen : 5 * v.length = 8 * b.length + rest.length := by simpa using congrArg List.length h
  have hcount : 5 * v.length / 8 = b.length := by omega
  have hover : 5 * v.length - 8 * b.length = rest.length := by omega
  have hdrop : (bits5 v).drop (8 * b.length) = rest := by rw [h, List.drop_left' (bits8_length b)]
  have htake : (bits5 v).take (8 * b.length) = bits8 b := by rw [h, List.take_left' (bits8_length b)]
  simp only [ungroup, hcount, hover, hdrop, htake, takeBytes_bits8, ite_or]

theorem ungroup_length {v : List Symbol} {b : List Byte} (h : ungroup v = some b) : b.length = 5 * v.length / 8 := by
  simp only [ungroup] at h
  split at h
  · cases h
  · split at h
    · cases h
    · cases h
      have hbits : ((bits5 v).take (8 * (5 * v.length / 8))).length = 8 * (5 * v.length / 8) := by
        rw [List.length_take, bits5_length]
        omega
      have := congrArg List.length (bits8_takeBytes hbits)
      rw [bits8_length, hbits] at this
      omega

/-- The left-over bits of a symbol string whose length mod 8 is 1, 3 or 6 are five or more (R192). -/
theorem ungroup_eq_none_of_length {v : List Symbol} (h : v.length % 8 ∈ [1, 3, 6]) : ungroup v = none := by
  simp only [List.mem_cons, List.not_mem_nil, or_false] at h
  exact if_pos (by omega)

/-- Settles O32: the bits GROUP pads with are those UNGROUP drops, fewer than five and all 0. -/
theorem ungroupOfGroup : Obligations.UngroupOfGroup := by
  intro b
  have hpad : 5 * groupCount b.length - 8 * b.length < 5 := by rw [groupCount]; omega
  refine ⟨?_, group_length b⟩
  rw [ungroup_of_bits5 (bits5_group b) (by rw [List.length_replicate]; omega), if_neg]
  simpa using hpad

end Sys2Proof.Machine
end

section
/-! PROOFS. The commands B32.GROUP and B32.UNGROUP (R193, R195): the checks in their order, then the regrouping. -/

namespace Sys2Proof.Machine

theorem Succeeded.olen_toNat {s t : State} {bs : List Byte} {r0 : Res0} {rid : Residue}
    (h : Succeeded s t bs r0 rid) : t.olen.toNat = bs.length := by
  obtain ⟨-, ⟨holen, -⟩, -⟩ := h
  exact holen

/-- Settles O20: the check of ILEN decides, and the symbols of at most 80 bytes fit OBUF. -/
theorem b32GroupResult : Obligations.B32GroupResult := by
  refine ⟨by decide, fun s => ⟨fun hlen => ?_, fun hlong => ?_⟩⟩
  · have hcount : (bytesOfSymbols (group (inputString s))).length = (8 * s.ilen.toNat + 4) / 5 := by
      rw [bytesOfSymbols_length, group_length, inputString_length, groupCount]
    have hdone := succeed_succeeded (bs := bytesOfSymbols (group (inputString s))) (by omega) noRes0 0 s
    exact ⟨_, if_neg (Nat.not_lt.2 hlen), hdone.olen_toNat.trans hcount, hdone⟩
  · exact ⟨_, if_pos hlong, failWith_failed ..⟩

theorem hasNonSymbol_iff (bs : List Byte) : hasNonSymbol bs = true ↔ ∃ b ∈ bs, 31 < b.toNat := by
  simp [hasNonSymbol]

/-- Settles O21: ILEN is checked first, then that every byte is a symbol, then the left-over bits; the bytes are no more
than the symbols, so they fit OBUF. -/
theorem b32UngroupResult : Obligations.B32UngroupResult := by
  refine ⟨by decide, fun s => ⟨fun hlong => ?_, fun hlen hbad => ?_, fun hlen hgood => ?_⟩⟩
  · exact ⟨_, if_pos hlong, failWith_failed ..⟩
  · refine ⟨_, (if_neg (Nat.not_lt.2 hlen)).trans (if_pos ?_), failWith_failed ..⟩
    exact (hasNonSymbol_iff _).2 hbad
  · have hsymbols : ¬ hasNonSymbol (inputString s) = true := by simpa [hasNonSymbol_iff] using hgood
    refine ⟨fun (hnone : ungroup (symbolsOf (inputString s)) = none) => ?_,
      fun b (hsome : ungroup (symbolsOf (inputString s)) = some b) => ?_⟩
    · refine ⟨_, (if_neg (Nat.not_lt.2 hlen)).trans ((if_neg hsymbols).trans ?_), failWith_failed ..⟩
      rw [hnone]
    · have hcount : b.length = 5 * s.ilen.toNat / 8 := by simpa using ungroup_length hsome
      have hdone := succeed_succeeded (bs := b) (by omega) noRes0 0 s
      refine ⟨_, (if_neg (Nat.not_lt.2 hlen)).trans ((if_neg hsymbols).trans ?_), hdone.olen_toNat.trans hcount, hdone⟩
      rw [hsome]

end Sys2Proof.Machine
end

section
/-! PROOFS. The accumulator form of R192: the elements put out, followed by the bits the accumulator keeps, are the stream
of the elements fed in. -/

namespace Sys2Proof.Machine

/-- The stream an accumulator stands for: its output and then the `bits` low bits of `acc`. -/
def Regrouper.stream {w : Nat} (g : Regrouper (BitVec w)) : List Bool := g.out.flatMap bitsOf ++ lowBits g.bits g.acc

/-- Between two elements fewer than `w` bits are kept, and `acc` holds no others (R192). -/
def Regrouper.Settled {w : Nat} (g : Regrouper (BitVec w)) : Prop := g.bits < w ∧ g.acc < 2 ^ g.bits

section
variable {w i : Nat}

/-- Putting out an element moves its bits from the accumulator to the output. -/
theorem emit_stream (k : Nat) (g : Regrouper (BitVec w)) : (emit w k g).stream = g.stream := by
  induction k generalizing g with
  | zero => rfl
  | succ k ih =>
    rw [emit]
    split
    · next hw =>
      have hsplit := lowBits_add w (g.bits - w) g.acc
      rw [Nat.add_sub_cancel' hw] at hsplit
      rw [ih, Regrouper.stream, Regrouper.stream, hsplit]
      simp [lowBits]
    · rfl

/-- Every turn takes `w` bits, so a bound that exceeds the bits above `w` is never met (R192). -/
theorem emit_bits_lt (hw : 0 < w) {k : Nat} {g : Regrouper (BitVec w)} (h : g.bits < w + k) :
    (emit w k g).bits < w := by
  induction k generalizing g with
  | zero => exact h
  | succ k ih =>
    rw [emit]
    split
    · exact ih (by simp only; omega)
    · omega

theorem feed_stream (g : Regrouper (BitVec w)) (x : BitVec i) : (feed w g x).stream = g.stream ++ bitsOf x := by
  have hemit := emit_stream i (w := w) ⟨(g.acc <<< i) ||| x.toNat, g.bits + i, g.out⟩
  simp only [Regrouper.stream, lowBits_shiftLeft_or] at hemit
  simp only [Regrouper.stream, feed, lowBits_mod, hemit, List.append_assoc]

theorem feed_settled {g : Regrouper (BitVec w)} (hg : g.Settled) (x : BitVec i) : (feed w g x).Settled := by
  obtain ⟨hbits, -⟩ := hg
  exact ⟨emit_bits_lt (by omega) (by simp only; omega), Nat.mod_lt _ (Nat.two_pow_pos _)⟩

/-- The accumulator after an input: settled, and standing for the input's stream. -/
theorem foldl_feed {g : Regrouper (BitVec w)} (hg : g.Settled) (xs : List (BitVec i)) :
    (xs.foldl (feed w) g).Settled ∧ (xs.foldl (feed w) g).stream = g.stream ++ xs.flatMap bitsOf := by
  induction xs generalizing g with
  | nil => exact ⟨hg, by simp⟩
  | cons x xs ih =>
    obtain ⟨hsettled, hstream⟩ := ih (feed_settled hg x)
    exact ⟨hsettled, by rw [List.foldl_cons, hstream, feed_stream, List.flatMap_cons, List.append_assoc]⟩

/-- From the empty accumulator: the input's stream is the output's, and then the bits kept. -/
theorem foldl_feed_empty (hw : 0 < w) (xs : List (BitVec i)) :
    (xs.foldl (feed w) ⟨0, 0, []⟩).Settled ∧ xs.flatMap bitsOf = (xs.foldl (feed w) ⟨0, 0, []⟩).stream := by
  obtain ⟨hsettled, hstream⟩ := foldl_feed (g := (⟨0, 0, []⟩ : Regrouper (BitVec w))) ⟨hw, by simp⟩ xs
  exact ⟨hsettled, hstream.symm⟩

end

/-- The bits kept at the end are the left-over bits of UNGROUP. -/
theorem ungroupByAccumulator_eq (v : List Symbol) : ungroupByAccumulator v = ungroup v := by
  obtain ⟨⟨hbits, hacc⟩, hstream⟩ := foldl_feed_empty (w := 8) (by decide) v
  simp only [ungroup_of_bits5 hstream (by rwa [lowBits_length]), lowBits_length, any_lowBits hacc, ungroupByAccumulator]

/-- The bits kept at the end, padded to five with zeros, are the last symbol of GROUP. -/
theorem groupByAccumulator_eq (b : List Byte) : groupByAccumulator b = group b := by
  obtain ⟨⟨hbits, -⟩, hstream⟩ := foldl_feed_empty (w := 5) (by decide) b
  rw [groupByAccumulator]
  generalize b.foldl (feed 5) ⟨0, 0, []⟩ = g at hbits hstream ⊢
  have hstream : bits8 b = bits5 g.out ++ lowBits g.bits g.acc := hstream
  have hlen : 8 * b.length = 5 * g.out.length + g.bits := by simpa using congrArg List.length hstream
  rw [group, hstream, List.append_assoc]
  split
  · next hkept =>
    have hpad : 5 * groupCount b.length - 8 * b.length = 5 - g.bits := by rw [groupCount]; omega
    have hlast := lowBits_shiftLeft g.bits (5 - g.bits) g.acc
    rw [Nat.add_sub_cancel' (Nat.le_of_lt hbits)] at hlast
    have hsymbols : bits5 g.out ++ lowBits 5 (g.acc <<< (5 - g.bits)) =
        bits5 (g.out ++ [BitVec.ofNat 5 (g.acc <<< (5 - g.bits))]) := by simp [bits5, lowBits]
    rw [hpad, ← hlast, hsymbols, takeSymbols_bits5]
  · next hnone =>
    have hzero : g.bits = 0 := by omega
    have hpad : 5 * groupCount b.length - 8 * b.length = 0 := by rw [groupCount]; omega
    have hsymbols : bits5 g.out ++ (lowBits 0 g.acc ++ List.replicate 0 false) = bits5 g.out := by
      simp [lowBits, bitsOf]
    rw [hpad, hzero, hsymbols, takeSymbols_bits5]

/-- Settles O33: both accumulators stand for the stream of the definition. -/
theorem regroupAccumulatorForm : Obligations.RegroupAccumulatorForm :=
  ⟨groupByAccumulator_eq, ungroupByAccumulator_eq, fun _ => ungroup_eq_none_of_length⟩

end Sys2Proof.Machine
end

section
/-! PROOFS. The checksum of Bech32 (R206, R211, R215): POLYMOD is linear over XOR, and six symbols into a register at 0
do not reach its feedback, so they stay in it as they are. -/

namespace Sys2Proof.Machine

/-! ### One symbol into the register -/

theorem xorIf_xor (a b : Bool) (k c d : Residue) : xorIf (a ^^ b) k (c ^^^ d) = xorIf a k c ^^^ xorIf b k d := by
  have hcancel : (c ^^^ k) ^^^ (d ^^^ k) = c ^^^ d := by
    rw [BitVec.xor_comm d, BitVec.xor_assoc, ← BitVec.xor_assoc k, BitVec.xor_self, BitVec.zero_xor]
  match a, b with
  | false, false => rfl
  | false, true => exact BitVec.xor_assoc ..
  | true, false => show (c ^^^ d) ^^^ k = (c ^^^ k) ^^^ d; ac_rfl
  | true, true => exact hcancel.symm

/-- The mask of R206 clears only bits that the shift drops from the 30-bit register. -/
theorem mask_shiftLeft (c : Residue) : (c &&& 0x1FFFFFF) <<< 5 = c <<< 5 := by
  have hmask : (c &&& 0x1FFFFFF).toNat = c.toNat % 2 ^ 25 := Nat.and_two_pow_sub_one_eq_mod _ 25
  apply BitVec.eq_of_toNat_eq
  rw [BitVec.toNat_shiftLeft, BitVec.toNat_shiftLeft, hmask, Nat.shiftLeft_eq, Nat.shiftLeft_eq]
  omega

theorem polymodStep_xor (c d : Residue) (x y : Symbol) :
    polymodStep (c ^^^ d) (x ^^^ y) = polymodStep c x ^^^ polymodStep d y := by
  have hbase : ((c ^^^ d) <<< 5) ^^^ (x.setWidth 30 ^^^ y.setWidth 30) =
      ((c <<< 5) ^^^ x.setWidth 30) ^^^ ((d <<< 5) ^^^ y.setWidth 30) := by
    rw [BitVec.shiftLeft_xor_distrib]
    ac_rfl
  simp only [polymodStep, mask_shiftLeft, BitVec.ushiftRight_xor_distrib, BitVec.setWidth_xor, BitVec.getLsbD_xor,
    ← xorIf_xor, hbase]

/-- The next five bits of a number follow its higher ones into the register: the feedback is 0. -/
theorem polymodStep_next (p : Residue) (n : Nat) :
    polymodStep (p >>> (n + 5)) ((p >>> n).setWidth 5) = p >>> n := by
  have htop : p >>> (n + 5) >>> 25 = 0 := by
    rw [← BitVec.shiftRight_add]
    exact BitVec.ushiftRight_eq_zero (by omega)
  have hbits : (p >>> (n + 5)) <<< 5 ^^^ ((p >>> n).setWidth 5).setWidth 30 = p >>> n := by
    rw [BitVec.shiftRight_add]
    ext i hi
    by_cases hlow : i < 5
    · simp [hlow]
    · simp [hlow, show n + (5 + (i - 5)) = n + i by omega]
  rw [polymodStep, mask_shiftLeft, hbits, htop]
  rfl

/-! ### A string into the register -/

theorem foldl_polymodStep_xor (c d : Residue) (v : List Symbol) :
    v.foldl polymodStep (c ^^^ d) = (List.replicate v.length 0).foldl polymodStep c ^^^ v.foldl polymodStep d := by
  induction v generalizing c d with
  | nil => rfl
  | cons x v ih =>
    have hstep : polymodStep (c ^^^ d) x = polymodStep c 0 ^^^ polymodStep d x := by
      simpa using polymodStep_xor c d 0 x
    rw [List.foldl_cons, hstep, ih, List.length_cons, List.replicate_succ, List.foldl_cons, List.foldl_cons]

theorem checksumSymbols_eq (p : Residue) : checksumSymbols p =
    [(p >>> 25).setWidth 5, (p >>> 20).setWidth 5, (p >>> 15).setWidth 5, (p >>> 10).setWidth 5,
      (p >>> 5).setWidth 5, p.setWidth 5] := by
  simp [checksumSymbols, List.range_succ]

theorem foldl_polymodStep_checksumSymbols (p : Residue) : (checksumSymbols p).foldl polymodStep 0 = p := by
  have hfirst : (0 : Residue) = p >>> (25 + 5) := (BitVec.ushiftRight_eq_zero (by decide)).symm
  have hlast : polymodStep (p >>> 5) (p.setWidth 5) = p := polymodStep_next p 0
  rw [checksumSymbols_eq, hfirst]
  simp only [List.foldl_cons, List.foldl_nil]
  rw [polymodStep_next p 25, polymodStep_next p 20, polymodStep_next p 15, polymodStep_next p 10,
    polymodStep_next p 5, hlast]

/-- The six symbols of `p` in place of six zeros XOR `p` into the residue. -/
theorem polymod_append_checksumSymbols (v : List Symbol) (p : Residue) :
    polymod (v ++ checksumSymbols p) = polymod (v ++ [0, 0, 0, 0, 0, 0]) ^^^ p := by
  have hfold : (checksumSymbols p).foldl polymodStep (polymod v) =
      ([0, 0, 0, 0, 0, 0] : List Symbol).foldl polymodStep (polymod v) ^^^ p := by
    have hxor := foldl_polymodStep_xor (polymod v) 0 (checksumSymbols p)
    rw [foldl_polymodStep_checksumSymbols] at hxor
    simpa using hxor
  rw [polymod, List.foldl_append, polymod, List.foldl_append]
  exact hfold

theorem checksumValue_eq (var : Variant) (h : List Byte) (v : List Symbol) : checksumValue var h v =
    polymod (hrpExpand h ++ v ++ [0, 0, 0, 0, 0, 0]) ^^^ (if var = .bech32 then 0x00000001 else 0x2BC830A3) := by
  cases var <;> rfl

/-- Settles O34: the symbols XOR `p` into the residue over six zeros, of which `p` differs by the constant. -/
theorem checksumResidue : Obligations.ChecksumResidue := by
  intro var h d
  rw [polymod_append_checksumSymbols, checksumValue_eq, ← BitVec.xor_assoc, BitVec.xor_self, BitVec.zero_xor]

/-- Settles O35: the data part is of characters of the alphabet, and the separator is no letter. -/
theorem packedTextShape : Obligations.PackedTextShape := by
  intro var h v hprefix
  have hpack : packText var h v = h ++ [0x31] ++ (v ++ checksumSymbols (checksumValue var h v)).map a32 := by
    simp [packText, separator]
  refine ⟨⟨_, hpack, by simp, fun hsep => ?_⟩, fun c hc => ?_⟩
  · obtain ⟨x, -, hx⟩ := List.mem_map.1 hsep
    exact (a32_not_separator x).1 hx
  · rw [hpack, List.mem_append, List.mem_append] at hc
    obtain (hc | hc) | hc := hc
    · exact (hprefix c hc).2.2
    · rw [List.mem_singleton.1 hc]
      decide
    · obtain ⟨x, -, rfl⟩ := List.mem_map.1 hc
      exact (a32_not_separator x).2

end Sys2Proof.Machine
end

section
/-! PROOFS. The commands B32.POLYMOD, B32.CKSUM and B32.ENC (R210, R215, R220): the two lengths are checked first, then
the characters of the prefix and the input bytes; B32.ENC checks the total length between. -/

namespace Sys2Proof.Machine

/-- The checks of ILEN and HLEN, before what follows them (R210, lines 1 and 2). -/
def lengthChecks (s : State) (rest : Host.Outcome State Fault Refusal) : Host.Outcome State Fault Refusal :=
  if 128 < s.ilen.toNat then .next (failWith .len s)
  else if badPrefixLength s then .next (failWith .hrp s)
  else rest

/-- The checks of the prefix characters and the input bytes, before the completion (R210, lines 3 and 4). -/
def stringChecks (s : State) (rest : Host.Outcome State Fault Refusal) : Host.Outcome State Fault Refusal :=
  if hasBadPrefixChar (prefixString s) then .next (failWith .hrp s)
  else if hasNonSymbol (inputString s) then .next (failWith .value s)
  else rest

theorem exec_b32Polymod (s : State) : exec .b32Polymod s = lengthChecks s (stringChecks s (.next
    (succeed [] noRes0 (polymod (hrpExpand (prefixString s) ++ symbolsOf (inputString s))) s))) := rfl

theorem exec_b32Cksum (var : Variant) (s : State) :
    exec (.b32Cksum var) s = lengthChecks s (stringChecks s (.next
      (succeed (bytesOfSymbols (checksumSymbols (checksumValue var (prefixString s) (symbolsOf (inputString s)))))
        noRes0 (checksumValue var (prefixString s) (symbolsOf (inputString s))) s))) := rfl

theorem exec_b32Enc (var : Variant) (s : State) : exec (.b32Enc var) s = lengthChecks s
    (if 90 < s.hlen.toNat + 1 + s.ilen.toNat + 6 then .next (failWith .b32TooLong s)
    else stringChecks s (.next (succeed (packText var (prefixString s) (symbolsOf (inputString s))) noRes0
      (checksumValue var (prefixString s) (symbolsOf (inputString s))) s))) := rfl

/-! ### The checks -/

theorem badPrefixLength_iff (s : State) : badPrefixLength s = true ↔ ¬ (1 ≤ s.hlen.toNat ∧ s.hlen.toNat ≤ 83) := by
  simp only [badPrefixLength, decide_eq_true_iff, Config.hrpMin, Config.hrpMax]
  omega

theorem hasBadPrefixChar_iff (h : List Byte) : hasBadPrefixChar h = true ↔
    ∃ c ∈ h, ¬ (33 ≤ c.toNat ∧ c.toNat ≤ 126 ∧ ¬ (0x41 ≤ c.toNat ∧ c.toNat ≤ 0x5A)) := by
  have hchar (c : Byte) : (!prefixChar c) = true ↔
      ¬ (33 ≤ c.toNat ∧ c.toNat ≤ 126 ∧ ¬ (0x41 ≤ c.toNat ∧ c.toNat ≤ 0x5A)) := by
    simp only [prefixChar, Bool.not_eq_true', ← Bool.not_eq_true, Bool.and_eq_true, decide_eq_true_iff, and_assoc]
  simp only [hasBadPrefixChar, List.any_eq_true, hchar]

section
variable {s : State} {rest : Host.Outcome State Fault Refusal}

theorem lengthChecks_long (hlong : 128 < s.ilen.toNat) :
    ∃ t, lengthChecks s rest = .next t ∧ Failed s t .len noRes0 :=
  ⟨_, if_pos hlong, failWith_failed ..⟩

theorem lengthChecks_badPrefix (hlen : s.ilen.toNat ≤ 128) (hbad : ¬ (1 ≤ s.hlen.toNat ∧ s.hlen.toNat ≤ 83)) :
    ∃ t, lengthChecks s rest = .next t ∧ Failed s t .hrp noRes0 :=
  ⟨_, (if_neg (Nat.not_lt.2 hlen)).trans (if_pos ((badPrefixLength_iff s).2 hbad)), failWith_failed ..⟩

theorem lengthChecks_pass (hlen : s.ilen.toNat ≤ 128) (hmin : 1 ≤ s.hlen.toNat) (hmax : s.hlen.toNat ≤ 83) :
    lengthChecks s rest = rest :=
  (if_neg (Nat.not_lt.2 hlen)).trans (if_neg fun hbad => (badPrefixLength_iff s).1 hbad ⟨hmin, hmax⟩)

theorem stringChecks_badChar
    (hbad : ∃ c ∈ prefixString s, ¬ (33 ≤ c.toNat ∧ c.toNat ≤ 126 ∧ ¬ (0x41 ≤ c.toNat ∧ c.toNat ≤ 0x5A))) :
    ∃ t, stringChecks s rest = .next t ∧ Failed s t .hrp noRes0 :=
  ⟨_, if_pos ((hasBadPrefixChar_iff _).2 hbad), failWith_failed ..⟩

variable (hchars : ∀ c ∈ prefixString s, 33 ≤ c.toNat ∧ c.toNat ≤ 126 ∧ ¬ (0x41 ≤ c.toNat ∧ c.toNat ≤ 0x5A))
include hchars

theorem hasBadPrefixChar_of_accepted : ¬ hasBadPrefixChar (prefixString s) = true := fun hbad =>
  have ⟨c, hc, hno⟩ := (hasBadPrefixChar_iff _).1 hbad
  hno (hchars c hc)

theorem stringChecks_nonSymbol (hbad : ∃ b ∈ inputString s, 31 < b.toNat) :
    ∃ t, stringChecks s rest = .next t ∧ Failed s t .value noRes0 :=
  ⟨_, (if_neg (hasBadPrefixChar_of_accepted hchars)).trans (if_pos ((hasNonSymbol_iff _).2 hbad)), failWith_failed ..⟩

theorem stringChecks_pass (hsymbols : ∀ b ∈ inputString s, b.toNat ≤ 31) : stringChecks s rest = rest :=
  (if_neg (hasBadPrefixChar_of_accepted hchars)).trans (if_neg fun hbad =>
    have ⟨b, hb, hno⟩ := (hasNonSymbol_iff _).1 hbad
    absurd (hsymbols b hb) (Nat.not_le.2 hno))

end

/-! ### The commands -/

/-- The low five bits of a residue as a byte: by way of the symbol or by the mask of R215. -/
theorem setWidth_symbol_eq_and (q : Residue) : ((q.setWidth 5 : Symbol).setWidth 8 : Byte) = q.setWidth 8 &&& 31 := by
  have hmask : (q.setWidth 8 &&& (31 : Byte)).toNat = q.toNat % 2 ^ 8 % 2 ^ 5 := Nat.and_two_pow_sub_one_eq_mod _ 5
  apply BitVec.eq_of_toNat_eq
  rw [hmask, BitVec.toNat_setWidth, BitVec.toNat_setWidth]
  omega

theorem bytesOfSymbols_checksumSymbols (p : Residue) : bytesOfSymbols (checksumSymbols p) =
    [(p >>> 25).setWidth 8 &&& 31, (p >>> 20).setWidth 8 &&& 31, (p >>> 15).setWidth 8 &&& 31,
      (p >>> 10).setWidth 8 &&& 31, (p >>> 5).setWidth 8 &&& 31, p.setWidth 8 &&& 31] := by
  simp only [bytesOfSymbols, checksumSymbols_eq, List.map_cons, List.map_nil, setWidth_symbol_eq_and]

/-- Settles O22: the checks in their order, then the raw residue and the empty output string. -/
theorem b32PolymodResult : Obligations.B32PolymodResult := by
  refine ⟨by decide, fun s => ?_⟩
  simp only [exec_b32Polymod]
  refine ⟨lengthChecks_long, lengthChecks_badPrefix, fun hlen hmin hmax hbad => ?_,
    fun hlen hmin hmax hchars hbad => ?_, fun hlen hmin hmax hchars hsymbols => ?_⟩ <;>
    rw [lengthChecks_pass hlen hmin hmax]
  · exact stringChecks_badChar hbad
  · exact stringChecks_nonSymbol hchars hbad
  · rw [stringChecks_pass hchars hsymbols]
    exact ⟨_, rfl, rfl, succeed_succeeded (by simp) ..⟩

/-- Settles O23: the checks in their order, then the six symbols of the checksum value. -/
theorem b32CksumResult : Obligations.B32CksumResult := by
  refine ⟨by decide, by decide, fun var s => ?_⟩
  simp only [exec_b32Cksum]
  refine ⟨lengthChecks_long, lengthChecks_badPrefix, fun hlen hmin hmax hbad => ?_,
    fun hlen hmin hmax hchars hbad => ?_, fun hlen hmin hmax hchars hsymbols p hp => ?_⟩ <;>
    rw [lengthChecks_pass hlen hmin hmax]
  · exact stringChecks_badChar hbad
  · exact stringChecks_nonSymbol hchars hbad
  · have hvalue := hp.trans (checksumValue_eq var (prefixString s) (symbolsOf (inputString s))).symm
    rw [stringChecks_pass hchars hsymbols, ← hvalue, bytesOfSymbols_checksumSymbols]
    exact ⟨_, rfl, rfl, succeed_succeeded (by simp) ..⟩

/-- Settles O24: the total length is checked between the two groups; a text of at most 90 characters fits OBUF. -/
theorem b32EncResult : Obligations.B32EncResult := by
  refine ⟨by decide, by decide, fun var s => ?_⟩
  simp only [exec_b32Enc]
  refine ⟨fun hlen hmin hmax hlong => ?_, lengthChecks_long, lengthChecks_badPrefix,
    fun hlen hmin hmax htotal hbad => ?_, fun hlen hmin hmax htotal hchars hbad => ?_,
    fun hlen hmin hmax htotal hchars hsymbols p hp => ?_⟩ <;>
    rw [lengthChecks_pass hlen hmin hmax]
  · exact ⟨_, if_pos hlong, failWith_failed ..⟩
  all_goals rw [if_neg (Nat.not_lt.2 htotal)]
  · exact stringChecks_badChar hbad
  · exact stringChecks_nonSymbol hchars hbad
  · have hvalue := hp.trans (checksumValue_eq var (prefixString s) (symbolsOf (inputString s))).symm
    have htext : (packText var (prefixString s) (symbolsOf (inputString s))).length =
        s.hlen.toNat + s.ilen.toNat + 7 := by simp
    have hdone := succeed_succeeded (htext.trans_le (by omega)) noRes0 p s
    rw [stringChecks_pass hchars hsymbols, ← hvalue]
    refine ⟨_, rfl, hdone.olen_toNat.trans htext, ?_⟩
    rwa [packText, ← hvalue, checksumSymbols_eq] at hdone ⊢

end Sys2Proof.Machine
end

section
/-! PROOFS. The lifecycle of a command (R230, R232) and the two housekeeping commands (R235, R236): a write of CMD starts
the command, the completing edge runs what its word decodes to, and an illegal word completes as R238 says. -/

namespace Sys2Proof.Machine

/-! ### Completion -/

theorem Completion.completed {s t : State} (h : Completion s t) : Completed t t.err := by
  obtain ⟨e, u, rfl⟩ := h.exists_complete
  exact complete_completed e u

/-- Settles O10: every command answers with one of the model's completions. -/
theorem everyCommandCompletes : Obligations.EveryCommandCompletes := by
  intro i s
  obtain ⟨t, ht⟩ := exec_answers i s
  have hdone := exec_completion ht
  exact ⟨t, ht, hdone.completed, hdone.controlKept⟩

/-- Settles O12: NOP is the bare completion with the code OK. -/
theorem nopResult : Obligations.NopResult :=
  ⟨sampleWordsDecode.1, fun _ => rfl⟩

/-- Settles O13: MOV.O2I stores the output string at OFF, or its length test fails and it completes bare. -/
theorem movO2IResult : Obligations.MovO2IResult := by
  refine ⟨fun off => decodeOfEncode (.movO2I off) (instr_wf _), fun off s => ?_⟩
  rcases execMovO2I_cases off s with ⟨hlong, hexec⟩ | ⟨hfits, hexec⟩
  · exact ⟨fun hfits => absurd hlong (Nat.not_lt.2 hfits), fun _ => hexec⟩
  · obtain ⟨holen, hres0, hresid, hframe⟩ := execMovO2I_frame hexec
    have hcontrol := (exec_completion (i := .movO2I off) hexec).controlKept
    refine ⟨fun _ => ⟨_, hexec, complete_completed .ok _, hcontrol, ?_, holen, hres0, hresid, fun i hi => ?_, hframe⟩,
      fun hlong => absurd hlong (Nat.not_lt.2 hfits)⟩
    · rw [complete_ilen, BitVec.toNat_ofNat, Nat.mod_eq_of_lt (by omega)]
    · rw [readByte_movO2I_inside _ _ _ _ _ (by rwa [outputString_length])]
      exact readBytes_getElem ..

/-! ### The steps of a command's life -/

section
variable {s : State} {w : Word} {tc : Bool} {rest : List Event}

theorem engineTurn_running (hrun : s.phase = .run w tc) : engineTurn s = runCommand w s := by
  rw [engineTurn, hrun]

theorem runCommand_command {i : Instr} (h : decodeWord w = .command i) (s : State) : runCommand w s = exec i s := by
  rw [runCommand, h]

theorem step_unscheduled (hnext : s.pending = []) : step s = engineTurn s := by
  rw [step, stepState, hnext]

/-- Outside reset an edge that completes nothing only leaves the schedule (R290). -/
theorem step_otherEdge (hreset : s.inReset = false) (hnext : s.pending = .clk false :: rest) :
    step s = .next { s with pending := rest } := by
  simp [step, stepState, hnext, handleEvent, sampleReset, hreset]

/-- A completing edge fails an illegal word, whatever the state holds (R238). -/
theorem step_completes_illegal {r : IllegalReason} (hreset : s.inReset = false) (hrun : s.phase = .run w tc)
    (hdecode : decodeWord w = .illegal r) (hnext : s.pending = .clk true :: rest) :
    step s = .next (failWith .illegalCmd { s with pending := rest }) := by
  rw [step_completes hreset hrun hnext, runCommand, hdecode, completeIllegal]

/-- An idle block accepts a write of CMD and starts the command (R230). -/
theorem step_cmdWrite_idle (hreset : s.inReset = false) (hidle : s.phase = .idle)
    (hnext : s.pending = .write 0x008 .word w :: rest) :
    step s = .next { startCommand w { s with pending := rest } with resp := some .writeOk } := by
  have haccepted : writeTarget { s with pending := rest } 0x008 .word = some .cmd := writeTarget_of_idle hidle rfl rfl
  rw [step_write hreset hnext, hostWrite_accepted haccepted, writeValue]

/-- While a command runs a write of CMD is refused (R230, R262). -/
theorem step_cmdWrite_running {w' : Word} (hreset : s.inReset = false) (hrun : s.phase = .run w' tc)
    (hnext : s.pending = .write 0x008 .word w :: rest) :
    step s = .next (refuseWrite { s with pending := rest }) := by
  have hrefused : writeTarget { s with pending := rest } 0x008 .word = none := writeTarget_of_running hrun (by decide)
  rw [step_write hreset hnext, hostWrite_refused hrefused]

end

/-- Settles O7: both ways to complete a command are the engine's turn, which runs what the word decodes to. -/
theorem stepRunsDecodedCommand : Obligations.StepRunsDecodedCommand := by
  intro s w tc i hrun hdecode
  refine ⟨fun hnext => ?_, fun rest hnext hreset => ?_, fun rest hnext hreset => step_otherEdge hreset hnext⟩
  · rw [step_unscheduled hnext, engineTurn_running hrun, runCommand_command hdecode]
  · rw [step_completes hreset hrun hnext, runCommand_command hdecode]

/-- Settles O8: the write is accepted when idle and refused while a command runs. -/
theorem cmdWriteStartsCommand : Obligations.CmdWriteStartsCommand :=
  fun _ _ _ hreset hnext =>
    ⟨fun hidle => step_cmdWrite_idle hreset hidle hnext, fun _ _ hrun => step_cmdWrite_running hreset hrun hnext⟩

/-- Starting a command changes no input (R230). -/
theorem startCommand_inputsKept (w : Word) (s : State) :
    InputsKept { s with cmd := w } (startCommand w s) :=
  ⟨⟨rfl, rfl, rfl, rfl, rfl, rfl, rfl, rfl, rfl, rfl, rfl, rfl⟩, rfl, fun a _ => readByte_startCommand s w a⟩

/-- Settles O9: the write starts the command, and the edge completes it with E_ILLEGAL_CMD from any state. -/
theorem illegalWordResult : Obligations.IllegalWordResult := by
  refine ⟨fun s w r rest hreset hidle hdecode hnext => ?_, ⟨.reservedOp, by decide⟩, ⟨.argNonZero, by decide⟩⟩
  have hstart := step_cmdWrite_idle hreset hidle hnext
  exact ⟨_, _, hstart, rfl, startCommand_inputsKept w { s with pending := .clk true :: rest, resp := some .writeOk },
    step_completes_illegal hreset rfl hdecode rfl, failWith_failed ..⟩

end Sys2Proof.Machine
end

section
/-! PROOFS. The error code a command ends with (R252): each check of a command's meaning fails it with one code of its
row, and only the template test, made with TPLCHK = 1, finds an unknown version (R175, R179). -/

namespace Sys2Proof.Machine

/-- The command ends with one of the codes, and with E_B58_PREFIX only if the sampled TPLCHK is 1. -/
inductive EndsIn (codes : List ErrCode) (s : State) : (o : Host.Outcome State Fault Refusal) → Prop where
  | intro {t : State} (hmem : t.err ∈ codes) (hprefix : t.err = .b58Prefix → sampledTplchk s = true) :
    EndsIn codes s (.next t)

namespace EndsIn

variable {codes : List ErrCode} {s : State} {o : Host.Outcome State Fault Refusal}

/-- A completion with a code of the row other than E_B58_PREFIX. -/
theorem ended {t : State} {e : ErrCode} (herr : t.err = e) (he : e ∈ codes ∧ e ≠ .b58Prefix := by decide) :
    EndsIn codes s (.next t) := by
  subst herr
  exact .intro he.1 fun hprefix => absurd hprefix he.2

theorem failed (e : ErrCode) (he : e ∈ codes ∧ e ≠ .b58Prefix := by decide) :
    EndsIn codes s (.next (failWith e s)) :=
  ended (failKeeping_err ..) he

theorem succeeded {bs : List Byte} {r0 : Res0} {rid : Residue} (hok : .ok ∈ codes := by decide) :
    EndsIn codes s (.next (succeed bs r0 rid s)) :=
  ended (succeed_err ..) ⟨hok, by decide⟩

/-- A check that fails the command with a code of the row, or goes on. -/
theorem check {c : Prop} [Decidable c] (e : ErrCode) (h : EndsIn codes s o)
    (he : e ∈ codes ∧ e ≠ .b58Prefix := by decide) : EndsIn codes s (if c then .next (failWith e s) else o) := by
  split
  · exact failed e he
  · exact h

end EndsIn

variable (s : State)

theorem execB58cEnc_endsIn (ver : Byte) : EndsIn [.ok, .len] s (execB58cEnc ver s) := .check .len .succeeded

/-- The template test finds a version unknown only if it is made (R175, line 8). -/
theorem tplchk_of_unknownVersion {tplchk : Bool} {tpl : Vector Template 16} {ver : Byte} {plen : Nat}
    (h : templateTest tplchk tpl ver plen = .unknownVersion) : tplchk = true := by
  cases tplchk with
  | true => rfl
  | false => cases (templateTest_off rfl).symm.trans h

theorem finishB58cDec_endsIn (ver : Byte) (p : List Byte) {r : TemplateResult}
    (hr : r = .unknownVersion → sampledTplchk s = true) :
    EndsIn [.ok, .b58CkLen, .b58Prefix, .len] s (.next (finishB58cDec ver p s r)) := by
  cases r with
  | notTested => exact .succeeded
  | unknownVersion => exact .intro (by simp [finishB58cDec]) fun _ => hr rfl
  | wrongLength => exact .failed .b58CkLen
  | hit idx => exact .succeeded

theorem execB58cDec_endsIn : EndsIn [.ok, .b58CkLen, .b58Prefix, .len] s (execB58cDec s) := by
  refine .check .len ?_
  cases b58cOpen (inputString s) with
  | none => exact .failed .b58CkLen
  | some opened => exact finishB58cDec_endsIn s _ _ tplchk_of_unknownVersion

theorem execB58Enc_endsIn : EndsIn [.ok, .len] s (execB58Enc s) := .check .len .succeeded

theorem execB58Dec_endsIn : EndsIn [.ok, .b58Alphabet, .len] s (execB58Dec s) := by
  refine .check .len ?_
  cases b58dec (inputString s) with
  | none => exact .failed .b58Alphabet
  | some b => exact .succeeded

theorem execHash256_endsIn : EndsIn [.ok, .len] s (execHash256 s) := .check .len .succeeded

theorem execCksum4_endsIn : EndsIn [.ok, .len] s (execCksum4 s) := .check .len .succeeded

theorem execB32Group_endsIn : EndsIn [.ok, .len] s (execB32Group s) := .check .len .succeeded

theorem execB32Ungroup_endsIn : EndsIn [.ok, .b32Format, .value, .len] s (execB32Ungroup s) := by
  refine .check .len (.check .value ?_)
  cases ungroup (symbolsOf (inputString s)) with
  | none => exact .failed .b32Format
  | some b => exact .succeeded

theorem execB32Polymod_endsIn : EndsIn [.ok, .hrp, .value, .len] s (execB32Polymod s) :=
  .check .len (.check .hrp (.check .hrp (.check .value .succeeded)))

theorem execB32Cksum_endsIn (var : Variant) : EndsIn [.ok, .hrp, .value, .len] s (execB32Cksum var s) :=
  .check .len (.check .hrp (.check .hrp (.check .value .succeeded)))

theorem execB32Enc_endsIn (var : Variant) : EndsIn [.ok, .b32TooLong, .hrp, .value, .len] s (execB32Enc var s) :=
  .check .len (.check .hrp (.check .b32TooLong (.check .hrp (.check .value .succeeded))))

theorem execMovO2I_endsIn (off : Byte) : EndsIn [.ok, .len] s (execMovO2I off s) := by
  rcases execMovO2I_cases off s with ⟨-, hm⟩ | ⟨-, hm⟩ <;> rw [hm] <;> exact .ended (complete_err ..)

/-- Every command ends with a code of its row of R252's table. -/
theorem exec_endsIn (i : Instr) : EndsIn (possibleErrors i) s (exec i s) := by
  cases i with
  | nop => exact .ended (complete_err .ok s)
  | b58cEnc ver => exact execB58cEnc_endsIn s ver
  | b58cDec => exact execB58cDec_endsIn s
  | b58Enc => exact execB58Enc_endsIn s
  | b58Dec => exact execB58Dec_endsIn s
  | hash256 => exact execHash256_endsIn s
  | cksum4 => exact execCksum4_endsIn s
  | b32Group => exact execB32Group_endsIn s
  | b32Ungroup => exact execB32Ungroup_endsIn s
  | b32Polymod => exact execB32Polymod_endsIn s
  | b32Cksum var => exact execB32Cksum_endsIn s var
  | b32Enc var => exact execB32Enc_endsIn s var
  | movO2I off => exact execMovO2I_endsIn s off

/-- Settles O11: by the rows of `exec_endsIn`; an illegal word fails with its one code. -/
theorem commandErrorCodes : Obligations.CommandErrorCodes := by
  refine ⟨fun i s t h => ?_, fun s => failKeeping_err ..⟩
  have hend := exec_endsIn s i
  rw [h] at hend
  obtain ⟨hmem, hprefix⟩ := hend
  exact ⟨hmem, hprefix⟩

end Sys2Proof.Machine
end

section
/-! PROOFS. The accesses that are refused in every phase (R61, R63, R64, R66, R67, R262): those that select no place of
the window, and the writes to a read-only place. -/

namespace Sys2Proof.Machine

/-- The word indices of the window at which no register stands: 0x028 to 0x03F, and 0x080 on (R61). -/
theorem registerAt_eq_none {n : Nat} (h : 10 ≤ n ∧ n < 16 ∨ 32 ≤ n) : registerAt n = none := by
  unfold registerAt
  split
  case h_11 => exact if_neg (by omega)
  all_goals omega

theorem target_of_noPlace {off : Offset} {size : Size} (h : noPlace off size) : target off size = none := by
  cases size with
  | word =>
    simp only [noPlace] at h
    rw [target]
    split
    · exact registerAt_eq_none (by omega)
    · rfl
  | byte =>
    simp only [noPlace] at h
    exact if_neg fun hbuf => by
      have := (isBuffer_iff _).1 hbuf
      omega

/-- ID, ERR, OLEN, RES0 and RESID are read-only (R66). -/
theorem target_readOnly_register {off : Offset} (h : off.toNat ∈ [0x000, 0x010, 0x01C, 0x020, 0x024]) :
    ∃ p, target off .word = some p ∧ readOnly p = true := by
  simp only [List.mem_cons, List.not_mem_nil, or_false] at h
  rcases h with h | h | h | h | h <;> rw [target, h]
  · exact ⟨.id, rfl, rfl⟩
  · exact ⟨.err, rfl, rfl⟩
  · exact ⟨.olen, rfl, rfl⟩
  · exact ⟨.res0, rfl, rfl⟩
  · exact ⟨.resid, rfl, rfl⟩

/-- Every byte of OBUF is read-only (R66). -/
theorem target_readOnly_byte {off : Offset} (h : 0x180 ≤ off.toNat) :
    ∃ p, target off .byte = some p ∧ readOnly p = true :=
  ⟨_, target_byte_of_isBuffer ((isBuffer_iff _).2 (by omega)), (isObuf_iff _).2 (by omega)⟩

section
variable {off : Offset} {size : Size} (s : State)

theorem readTarget_of_noPlace (h : noPlace off size) : readTarget s off size = none := by
  rw [readTarget, target_of_noPlace h, Option.filter_none]

theorem writeTarget_of_noPlace (h : noPlace off size) : writeTarget s off size = none := by
  rw [writeTarget, target_of_noPlace h, Option.filter_none]

theorem writeTarget_of_readOnly (h : ∃ p, target off size = some p ∧ readOnly p = true) :
    writeTarget s off size = none := by
  obtain ⟨p, hp, hro⟩ := h
  simp [writeTarget, hp, hro]

end

/-- Settles O41: in none of the four cases does the port find a place for the access, so it refuses it. -/
theorem refusedAccesses : Obligations.RefusedAccesses := by
  intro s off size v rest hreset
  have refuses (hnext : s.pending = .write off size v :: rest)
      (hnone : writeTarget { s with pending := rest } off size = none) :
      ∃ t, step s = .next t ∧ RefusedWrite { s with pending := rest } t :=
    ⟨_, step_write hreset hnext, refusedWrite_hostWrite hnone⟩
  refine ⟨fun hno hnext => ?_, fun hno hnext => ?_, fun hsize hoff hnext => ?_, fun hsize hoff hnext => ?_⟩
  · exact ⟨_, step_read hreset hnext, refusedRead_hostRead (readTarget_of_noPlace _ hno)⟩
  · exact refuses hnext (writeTarget_of_noPlace _ hno)
  · subst hsize
    exact refuses hnext (writeTarget_of_readOnly _ (target_readOnly_register hoff))
  · subst hsize
    exact refuses hnext (writeTarget_of_readOnly _ (target_readOnly_byte hoff))

end Sys2Proof.Machine
end

section
/-! PROOFS. The interrupt level (R25, R27, R256): a completion raises DONE and keeps IE, a W1C of DONE lowers the level,
and a CTRL write takes effect on it at once. -/

namespace Sys2Proof.Machine

theorem Completion.irq_eq {s t : State} (h : Completion s t) : irq t = s.ie := by
  obtain ⟨-, -, hdone, -⟩ := h.completed
  obtain ⟨hie, -⟩ := h.controlKept
  rw [irq, hdone, hie, Bool.true_and]

/-- An idle block accepts a STATUS write, which clears DONE if bit 1 is set (R27, R66). -/
theorem step_writeStatus {s : State} {v : Word} {rest : List Event} (hreset : s.inReset = false)
    (hidle : s.phase = .idle) (hnext : s.pending = .write 0x00C .word v :: rest) :
    step s = .next { s with pending := rest, done := s.done && !v.getLsbD 1, resp := some .writeOk } := by
  have haccepted : writeTarget { s with pending := rest } 0x00C .word = some .status :=
    writeTarget_of_idle hidle rfl rfl
  rw [step_write hreset hnext, hostWrite_accepted haccepted, writeValue, writeStatus_eq]

/-- Settles O50: every completion raises DONE and keeps IE; the four other claims are the effect of the start, the W1C,
the reset and the CTRL write on DONE and IE. -/
theorem interruptLevel : Obligations.InterruptLevel := by
  refine ⟨fun s => Bool.and_eq_true_iff, fun i s t h => (exec_completion h).irq_eq,
    fun s => (Completion.failure .illegalCmd noRes0 noRes0_bounded).irq_eq, fun w s => rfl,
    fun s t v rest hreset hidle hv hnext h => ?_, fun s => rfl, fun s t v rest hreset hv hdone hnext h => ?_⟩
  · cases (step_writeStatus hreset hidle hnext).symm.trans h
    simp [irq, hv]
  · cases (step_writeCtrl hreset hv hnext).symm.trans h
    simp [irq, ctrlWritten, hdone]

end Sys2Proof.Machine
end

section
/-! PROOFS. Reset (R42, R280, R283): the invariant of the pin `rst_n`, what a step does while the block is in reset, and
what either reset leaves. -/

namespace Sys2Proof.Machine

/-! ### What keeps the pin and the reset -/

/-- The level of `rst_n`, and whether the block is in reset, are as before. -/
def PinsKept (s t : State) : Prop := t.rstN = s.rstN ∧ t.inReset = s.inReset

theorem Completion.pinsKept {s t : State} (h : Completion s t) : PinsKept s t := by
  obtain ⟨-, -, -, -, -, -, hrstN, hinReset, -⟩ := h.controlKept
  exact ⟨hrstN, hinReset⟩

theorem engineTurn_pinsKept {s t : State} (h : engineTurn s = .next t) : PinsKept s t := by
  rcases engineTurn_completion h with rfl | hc
  · exact ⟨rfl, rfl⟩
  · exact hc.pinsKept

theorem Effect.pinsKept {cause : Prop} {s t : State} (h : Effect cause s t) : PinsKept s t := by
  cases h with
  | completion hc => exact hc.pinsKept
  | keep | refuse | reset | configure | clearDone | start | storeByte => exact ⟨rfl, rfl⟩

theorem hostRead_pinsKept (off : Offset) (size : Size) (s : State) : PinsKept s (hostRead off size s) := by
  obtain ⟨hfault, resp, portDraw, hread⟩ := hostRead_answered off size s
  rw [hread]
  exact ⟨rfl, rfl⟩

theorem hostWrite_pinsKept (off : Offset) (size : Size) (v : Word) (s : State) :
    PinsKept s (hostWrite off size v s) := by
  rcases hostWrite_cases off size v s with ⟨-, hr⟩ | ⟨p, hp, hr⟩ <;> rw [hr]
  · exact ⟨rfl, rfl⟩
  · exact (writeValue_effect (cause := True) (fun _ => trivial) hp).pinsKept

/-! ### The invariant -/

/-- The pins, the schedule and the port are no registers. -/
theorem SameBlock.registersReset {s t : State} (h : SameBlock s t) (hs : RegistersReset s) : RegistersReset t := by
  cases h
  exact hs

theorem RegistersReset.phase {s : State} (h : RegistersReset s) : s.phase = .idle := congrArg State.phase h

theorem engineTurn_idle {s : State} (hidle : s.phase = .idle) : engineTurn s = .next s := by
  rw [engineTurn, hidle]

/-- What keeps the pins, and in reset every register, keeps the invariant. -/
theorem ResetInv.of_pinsKept {s t : State} (hs : ResetInv s) (hpins : PinsKept s t)
    (hblock : s.inReset = true → SameBlock s t) : ResetInv t := by
  obtain ⟨hlow, hregisters⟩ := hs
  obtain ⟨hrstN, hinReset⟩ := hpins
  rw [ResetInv, hrstN, hinReset]
  exact ⟨hlow, fun hin => (hblock hin).registersReset (hregisters hin)⟩

/-- The engine has nothing to complete while the block is in reset, since the phase is IDLE. -/
theorem resetInv_engineTurn {s t : State} (h : engineTurn s = .next t) (hs : ResetInv s) : ResetInv t := by
  refine hs.of_pinsKept (engineTurn_pinsKept h) fun hin => ?_
  cases (engineTurn_idle (hs.2 hin).phase).symm.trans h
  exact .refl s

/-- An edge that samples `rst_n` high ends the reset; no other changes anything (R280). -/
theorem resetInv_sampleReset {s : State} (hs : ResetInv s) : ResetInv (sampleReset s) := by
  rw [sampleReset]
  split
  · next hends =>
    have hhigh : s.rstN = true := (Bool.and_eq_true_iff.1 hends).2
    exact ⟨fun hlow => (by cases hhigh.symm.trans hlow), fun hin => (by cases hin)⟩
  · exact hs

theorem resetInv_setRstN (level : Bool) {s : State} (hs : ResetInv s) : ResetInv (setRstN level s) := by
  cases level with
  | false => exact ⟨fun _ => rfl, fun _ => rfl⟩
  | true => exact ⟨fun hlow => (by cases hlow), hs.2⟩

theorem resetInv_handleEvent {e : Event} {s t : State} (h : handleEvent e s = .next t) (hs : ResetInv s) :
    ResetInv t := by
  cases e with
  | read off size =>
    cases h
    split
    · exact hs.of_pinsKept ⟨rfl, rfl⟩ fun _ => .answer ..
    · next hout => exact hs.of_pinsKept (hostRead_pinsKept ..) fun hin => absurd hin hout
  | write off size v =>
    cases h
    split
    · exact hs.of_pinsKept ⟨rfl, rfl⟩ fun _ => .answer s _ s.portDraw
    · next hout => exact hs.of_pinsKept (hostWrite_pinsKept ..) fun hin => absurd hin hout
  | rstN level =>
    cases h
    exact resetInv_setRstN level hs
  | clk completes =>
    cases completes with
    | false =>
      cases h
      exact resetInv_sampleReset hs
    | true => exact resetInv_engineTurn h (resetInv_sampleReset hs)

/-- Settles O59: in reset the phase is IDLE and every access is refused without effect, so no event writes a register;
outside reset only a fall of `rst_n` begins one, and it resets every register at once. -/
theorem stepKeepsReset : Obligations.StepKeepsReset := by
  intro s t h hs
  rcases step_cases h with ⟨-, hengine⟩ | ⟨e, rest, -, hevent⟩
  · exact resetInv_engineTurn hengine hs
  · exact resetInv_handleEvent hevent (hs.of_pinsKept ⟨rfl, rfl⟩ fun _ => .schedule s rest)

/-! ### The two resets -/

theorem writeCtrl_of_srst {v : Word} (hv : v.getLsbD 31 = true) (s : State) : writeCtrl v s = resetBlock s :=
  if_pos hv

/-- After a reset no buffer byte is listed: each reads as a value drawn anew (R34, R39). -/
theorem readByte_resetBlock (s : State) (a : Nat) :
    readByte (resetBlock s) a = Config.freeByte (if isObuf a then s.outDraw + 1 else s.inDraw + 1) a := rfl

section
variable {s : State} {rest : List Event}

/-- A step with something scheduled is the first event's (R60, R73). -/
theorem step_scheduled {e : Event} (hnext : s.pending = e :: rest) :
    step s = handleEvent e { s with pending := rest } := by
  rw [step, stepState, hnext]

theorem step_softReset {v : Word} (hreset : s.inReset = false) (hv : v.getLsbD 31 = true)
    (hnext : s.pending = .write 0x004 .word v :: rest) :
    step s = .next { resetBlock { s with pending := rest } with resp := some .writeOk } := by
  rw [step_write hreset hnext, hostWrite_accepted (writeTarget_ctrl _), writeValue, writeCtrl_of_srst hv]

theorem step_rstN {level : Bool} (hnext : s.pending = .rstN level :: rest) :
    step s = .next (setRstN level { s with pending := rest }) :=
  step_scheduled hnext

theorem step_read_inReset {off : Offset} {size : Size} (hreset : s.inReset = true)
    (hnext : s.pending = .read off size :: rest) : step s = .next (readInReset { s with pending := rest }) :=
  (step_scheduled hnext).trans (congrArg Host.Outcome.next (if_pos hreset))

theorem step_write_inReset {off : Offset} {size : Size} {v : Word} (hreset : s.inReset = true)
    (hnext : s.pending = .write off size v :: rest) : step s = .next (writeInReset { s with pending := rest }) :=
  (step_scheduled hnext).trans (congrArg Host.Outcome.next (if_pos hreset))

/-- In reset an edge leaves the block in reset exactly if it samples `rst_n` low (R280). -/
theorem sampleReset_inReset (hreset : s.inReset = true) : sampleReset s = { s with inReset := !s.rstN } := by
  rw [sampleReset, hreset, Bool.true_and]
  split
  · next hhigh => rw [hhigh, Bool.not_true]
  · next hlow =>
    have hstays : (!s.rstN) = s.inReset := by simp [hlow, hreset]
    rw [hstays]

theorem step_clk_idle {completes : Bool} (hidle : s.phase = .idle) (hnext : s.pending = .clk completes :: rest) :
    step s = .next (sampleReset { s with pending := rest }) := by
  have hsampled : (sampleReset { s with pending := rest }).phase = .idle := by
    rw [sampleReset]
    split <;> exact hidle
  rw [step_scheduled hnext]
  cases completes with
  | true => exact engineTurn_idle hsampled
  | false => rfl

end

/-- Settles O47: CTRL is writable in every phase, and the write leaves the state `resetBlock`, with no byte listed. -/
theorem softReset : Obligations.SoftReset := by
  intro s v rest hreset hv hnext
  refine ⟨_, step_softReset hreset hv hnext, rfl, rfl, rfl, rfl, hreset, rfl, rfl, fun a ha => ?_, fun a ha => ?_⟩
  · exact (readByte_resetBlock { s with pending := rest } a).trans (by rw [if_pos ((isObuf_iff a).2 ha)])
  · exact (readByte_resetBlock { s with pending := rest } a).trans (by rw [if_neg (mt (isObuf_iff a).1 ha)])

/-- Settles O48: the fall of `rst_n` is `setRstN`, an access in reset changes the port alone, and an edge of an idle
block only samples the pin. -/
theorem hardReset : Obligations.HardReset := by
  refine ⟨fun s rest hnext => ⟨_, step_rstN hnext, rfl, rfl, rfl, rfl, rfl⟩, fun s off size v rest hreset => ⟨?_, ?_⟩,
    fun s c rest hreset hidle hnext => ?_⟩
  · exact fun hnext => step_write_inReset hreset hnext
  · exact fun hnext => ⟨_, _, step_read_inReset hreset hnext, rfl, rfl⟩
  · rw [step_clk_idle hidle hnext, sampleReset_inReset (s := { s with pending := rest }) hreset]

end Sys2Proof.Machine
end

section
/-! PROOFS. A running command completes (R232, R290): an event that does not reset the block either is its completing
edge or leaves it running, and when the schedule is empty the engine's turn completes it. -/

namespace Sys2Proof.Machine

/-- A running command's completion raises DONE and leaves the phase IDLE, whatever its word is (R232, R238). -/
theorem runCommand_completes (w : Word) (s : State) :
    ∃ t, runCommand w s = .next t ∧ t.phase = .idle ∧ t.done = true := by
  rw [runCommand]
  cases decodeWord w with
  | illegal r => exact ⟨_, rfl, rfl, rfl⟩
  | command i =>
    obtain ⟨t, ht⟩ := exec_answers i s
    obtain ⟨-, -, hdone, hidle⟩ := (exec_completion ht).completed
    exact ⟨t, ht, hidle, hdone⟩

/-- The command has completed, or it still runs outside reset, with the schedule `rest` before it. -/
def CompletedOrRunning (w : Word) (tc : Bool) (rest : List Event) (t : State) : Prop :=
  t.phase = .idle ∧ t.done = true ∨ t.inReset = false ∧ t.phase = .run w tc ∧ t.pending = rest

/-- The first event, if it is no reset, completes the running command or leaves it running (R67, R231, R290). -/
theorem step_running {s : State} {w : Word} {tc : Bool} {e : Event} {rest : List Event} (hreset : s.inReset = false)
    (hrun : s.phase = .run w tc) (hnext : s.pending = e :: rest) (hno : resets e = false) :
    ∃ t, step s = .next t ∧ CompletedOrRunning w tc rest t := by
  have access (haccess : (∃ off size, e = .read off size) ∨
      ∃ off size v, e = .write off size v ∧ ¬ (off = 0x004 ∧ size = .word)) :
      ∃ t, step s = .next t ∧ CompletedOrRunning w tc rest t := by
    obtain ⟨hfault, resp, portDraw, hstep⟩ := step_access_answered hreset hrun hnext haccess
    exact ⟨_, hstep, .inr ⟨hreset, hrun, rfl⟩⟩
  cases e with
  | read off size => exact access (.inl ⟨off, size, rfl⟩)
  | write off size v =>
    by_cases hctrl : off = 0x004 ∧ size = .word
    · obtain ⟨rfl, rfl⟩ := hctrl
      have hv : v.getLsbD 31 = false := by simpa [resets] using hno
      exact ⟨_, step_writeCtrl hreset hv hnext, .inr ⟨hreset, hrun, rfl⟩⟩
    · exact access (.inr ⟨off, size, v, rfl, hctrl⟩)
  | rstN level =>
    cases level with
    | false => cases hno
    | true => exact ⟨_, step_rstN hnext, .inr ⟨hreset, hrun, rfl⟩⟩
  | clk completes =>
    cases completes with
    | false => exact ⟨_, step_otherEdge hreset hnext, .inr ⟨hreset, hrun, rfl⟩⟩
    | true =>
      obtain ⟨t, ht, hdone⟩ := runCommand_completes w { s with pending := rest }
      exact ⟨t, (step_completes hreset hrun hnext).trans ht, .inl hdone⟩

theorem run_succ_of_step {s t : State} (h : step s = .next t) (k : Nat) :
    Host.Core.run core (k + 1) s = Host.Core.run core k t := by
  have hcore : core.step s = .next t := h
  simp only [Host.Core.run, hcore]

/-- Settles O53, by induction on the schedule: each event completes the command or leaves one event fewer before it. -/
theorem runningCommandCompletes : Obligations.RunningCommandCompletes := by
  intro s w tc hreset hrun hno
  induction hnext : s.pending generalizing s with
  | nil =>
    obtain ⟨t, ht, hdone⟩ := runCommand_completes w s
    have hstep : step s = .next t := (step_unscheduled hnext).trans ((engineTurn_running hrun).trans ht)
    exact ⟨1, t, Nat.le_refl 1, run_succ_of_step hstep 0, hdone⟩
  | cons e rest ih =>
    rw [hnext] at hno
    obtain ⟨hfirst, hlater⟩ := List.forall_mem_cons.1 hno
    obtain ⟨t, hstep, hdone | ⟨hreset', hrun', hrest⟩⟩ := step_running hreset hrun hnext hfirst
    · exact ⟨1, t, Nat.le_add_left 1 _, run_succ_of_step hstep 0, hdone⟩
    · obtain ⟨k, u, hk, hu, hdone⟩ := ih t hreset' hrun' (hrest ▸ hlater) hrest
      exact ⟨k + 1, u, Nat.succ_le_succ hk, (run_succ_of_step hstep k).trans hu, hdone⟩

end Sys2Proof.Machine
end
